-- ==== Sys2Proof/Word.lean ====
section
/-! DEFINITION. The bit vectors the spec treats as bits: the command word, the operand and result fields
(10_state.md R24, R25) and the five-flag set (10_state.md R21). -/

namespace Sys2Proof

/-- The 16-bit command word `CMD` (30_encoding.md R56). -/
abbrev CmdWord := BitVec 16

/-- A 64-bit operand field (`A`, `B`, `C`) or result field (`Z`) (10_state.md R24, R25). -/
abbrev Word := BitVec 64

/-- The five exception flags: bit 0 inexact, bit 1 underflow, bit 2 overflow, bit 3 infinite, bit 4 invalid
(10_state.md R21). -/
abbrev FlagSet := BitVec 5

end Sys2Proof
end

