-- ==== Sys2Proof/Syntax.lean ====
section
/-! DEFINITION. The syntax: a request as the host issues it (30_encoding.md R55), the host's inputs, and the decoded
instruction, one constructor per row of spec/opcode_table.json under the row's own mnemonic. -/

namespace Sys2Proof

/-- The six rounding modes (30_encoding.md R60). -/
inductive RoundingMode where
  /-- round-nearest-ties-even, `-rnear_even` -/
  | rne
  /-- round-toward-zero, `-rminMag` -/
  | rtz
  /-- round-toward-negative, `-rmin` -/
  | rdn
  /-- round-toward-positive, `-rmax` -/
  | rup
  /-- round-nearest-ties-away, `-rnear_maxMag` -/
  | rmm
  /-- round-odd (jamming), `-rodd` -/
  | odd
deriving DecidableEq, Repr

/-- The three operand fields of a request (10_state.md R24). -/
structure Operands where
  a : Word
  b : Word
  c : Word
deriving DecidableEq, Repr

/-- A request `(CMD, A, B, C)` (30_encoding.md R55). -/
structure Request where
  cmd : CmdWord
  ops : Operands
deriving DecidableEq, Repr

/-- A response `(Z, FL)` (10_state.md R25). -/
structure Response where
  z  : Word
  fl : FlagSet
deriving DecidableEq, Repr

/-- What the host can do to the unit: issue a request, or assert reset between requests
(00_scope.md R9, 70_reset_and_hazards.md R301). -/
inductive HostInput where
  | request (r : Request)
  | reset
deriving DecidableEq, Repr

/-- The decoded request. A kernel operation carries its rounding mode, its `exact` bit and the three operand
fields; a control request carries the four bits `CMD[9:6]` it ignores and the operand fields. Nothing of a
well-formed request is lost, so decoding has an inverse on both sides (log entry 4). -/
inductive Instr where
  /-- op 0x00; operands A, B : F32; result F32 (45_add_sub.md R183) -/
  | f32_add (rm : RoundingMode) (exact : Bool) (ops : Operands)
  /-- op 0x01; operands A, B : F32; result F32 (45_add_sub.md R184) -/
  | f32_sub (rm : RoundingMode) (exact : Bool) (ops : Operands)
  /-- op 0x02; operands A, B : F32; result F32 (46_mul_fma.md R192) -/
  | f32_mul (rm : RoundingMode) (exact : Bool) (ops : Operands)
  /-- op 0x03; operands A, B : F32; result F32 (47_div_rem_sqrt.md R207) -/
  | f32_div (rm : RoundingMode) (exact : Bool) (ops : Operands)
  /-- op 0x04; operands A, B : F32; result F32 (47_div_rem_sqrt.md R211) -/
  | f32_rem (rm : RoundingMode) (exact : Bool) (ops : Operands)
  /-- op 0x05; operands A : F32; result F32 (47_div_rem_sqrt.md R217) -/
  | f32_sqrt (rm : RoundingMode) (exact : Bool) (ops : Operands)
  /-- op 0x06; operands A, B, C : F32; result F32 (46_mul_fma.md R197) -/
  | f32_mulAdd (rm : RoundingMode) (exact : Bool) (ops : Operands)
  /-- op 0x07; operands A : F32; result F32 (48_compare_classify_roundtoint.md R243) -/
  | f32_roundToInt (rm : RoundingMode) (exact : Bool) (ops : Operands)
  /-- op 0x08; operands A, B : F32; result 0 or 1 (48_compare_classify_roundtoint.md R226) -/
  | f32_eq (rm : RoundingMode) (exact : Bool) (ops : Operands)
  /-- op 0x09; operands A, B : F32; result 0 or 1 (48_compare_classify_roundtoint.md R227) -/
  | f32_le (rm : RoundingMode) (exact : Bool) (ops : Operands)
  /-- op 0x0A; operands A, B : F32; result 0 or 1 (48_compare_classify_roundtoint.md R228) -/
  | f32_lt (rm : RoundingMode) (exact : Bool) (ops : Operands)
  /-- op 0x0B; operands A, B : F32; result 0 or 1 (48_compare_classify_roundtoint.md R229) -/
  | f32_eq_signaling (rm : RoundingMode) (exact : Bool) (ops : Operands)
  /-- op 0x0C; operands A, B : F32; result 0 or 1 (48_compare_classify_roundtoint.md R230) -/
  | f32_le_quiet (rm : RoundingMode) (exact : Bool) (ops : Operands)
  /-- op 0x0D; operands A, B : F32; result 0 or 1 (48_compare_classify_roundtoint.md R231) -/
  | f32_lt_quiet (rm : RoundingMode) (exact : Bool) (ops : Operands)
  /-- op 0x0E; operands A : F32; result 10-bit mask (48_compare_classify_roundtoint.md R239) -/
  | f32_classify (rm : RoundingMode) (exact : Bool) (ops : Operands)
  /-- op 0x10; operands A : F32; result ui32 (49_convert.md R252) -/
  | f32_to_ui32 (rm : RoundingMode) (exact : Bool) (ops : Operands)
  /-- op 0x11; operands A : F32; result ui64 (49_convert.md R253) -/
  | f32_to_ui64 (rm : RoundingMode) (exact : Bool) (ops : Operands)
  /-- op 0x12; operands A : F32; result i32 (49_convert.md R254) -/
  | f32_to_i32 (rm : RoundingMode) (exact : Bool) (ops : Operands)
  /-- op 0x13; operands A : F32; result i64 (49_convert.md R255) -/
  | f32_to_i64 (rm : RoundingMode) (exact : Bool) (ops : Operands)
  /-- op 0x14; operands A : ui32; result F32 (49_convert.md R261) -/
  | ui32_to_f32 (rm : RoundingMode) (exact : Bool) (ops : Operands)
  /-- op 0x15; operands A : ui64; result F32 (49_convert.md R262) -/
  | ui64_to_f32 (rm : RoundingMode) (exact : Bool) (ops : Operands)
  /-- op 0x16; operands A : i32; result F32 (49_convert.md R263) -/
  | i32_to_f32 (rm : RoundingMode) (exact : Bool) (ops : Operands)
  /-- op 0x17; operands A : i64; result F32 (49_convert.md R264) -/
  | i64_to_f32 (rm : RoundingMode) (exact : Bool) (ops : Operands)
  /-- op 0x18; operands A : F32; result F64 (49_convert.md R270) -/
  | f32_to_f64 (rm : RoundingMode) (exact : Bool) (ops : Operands)
  /-- op 0x1D; operands A[0] : tininess code; result 0 (44_nan_and_flag_logic.md R170) -/
  | ctx_init (spare : BitVec 4) (ops : Operands)
  /-- op 0x1E; operands none; result 0 (44_nan_and_flag_logic.md R171) -/
  | flags_reset (spare : BitVec 4) (ops : Operands)
  /-- op 0x1F; operands none; result zext_64(FLAGS) (44_nan_and_flag_logic.md R172) -/
  | flags_read (spare : BitVec 4) (ops : Operands)
  /-- op 0x20; operands A, B : F64; result F64 (45_add_sub.md R185) -/
  | f64_add (rm : RoundingMode) (exact : Bool) (ops : Operands)
  /-- op 0x21; operands A, B : F64; result F64 (45_add_sub.md R186) -/
  | f64_sub (rm : RoundingMode) (exact : Bool) (ops : Operands)
  /-- op 0x22; operands A, B : F64; result F64 (46_mul_fma.md R193) -/
  | f64_mul (rm : RoundingMode) (exact : Bool) (ops : Operands)
  /-- op 0x23; operands A, B : F64; result F64 (47_div_rem_sqrt.md R208) -/
  | f64_div (rm : RoundingMode) (exact : Bool) (ops : Operands)
  /-- op 0x24; operands A, B : F64; result F64 (47_div_rem_sqrt.md R212) -/
  | f64_rem (rm : RoundingMode) (exact : Bool) (ops : Operands)
  /-- op 0x25; operands A : F64; result F64 (47_div_rem_sqrt.md R218) -/
  | f64_sqrt (rm : RoundingMode) (exact : Bool) (ops : Operands)
  /-- op 0x26; operands A, B, C : F64; result F64 (46_mul_fma.md R198) -/
  | f64_mulAdd (rm : RoundingMode) (exact : Bool) (ops : Operands)
  /-- op 0x27; operands A : F64; result F64 (48_compare_classify_roundtoint.md R244) -/
  | f64_roundToInt (rm : RoundingMode) (exact : Bool) (ops : Operands)
  /-- op 0x28; operands A, B : F64; result 0 or 1 (48_compare_classify_roundtoint.md R232) -/
  | f64_eq (rm : RoundingMode) (exact : Bool) (ops : Operands)
  /-- op 0x29; operands A, B : F64; result 0 or 1 (48_compare_classify_roundtoint.md R233) -/
  | f64_le (rm : RoundingMode) (exact : Bool) (ops : Operands)
  /-- op 0x2A; operands A, B : F64; result 0 or 1 (48_compare_classify_roundtoint.md R234) -/
  | f64_lt (rm : RoundingMode) (exact : Bool) (ops : Operands)
  /-- op 0x2B; operands A, B : F64; result 0 or 1 (48_compare_classify_roundtoint.md R235) -/
  | f64_eq_signaling (rm : RoundingMode) (exact : Bool) (ops : Operands)
  /-- op 0x2C; operands A, B : F64; result 0 or 1 (48_compare_classify_roundtoint.md R236) -/
  | f64_le_quiet (rm : RoundingMode) (exact : Bool) (ops : Operands)
  /-- op 0x2D; operands A, B : F64; result 0 or 1 (48_compare_classify_roundtoint.md R237) -/
  | f64_lt_quiet (rm : RoundingMode) (exact : Bool) (ops : Operands)
  /-- op 0x2E; operands A : F64; result 10-bit mask (48_compare_classify_roundtoint.md R240) -/
  | f64_classify (rm : RoundingMode) (exact : Bool) (ops : Operands)
  /-- op 0x30; operands A : F64; result ui32 (49_convert.md R256) -/
  | f64_to_ui32 (rm : RoundingMode) (exact : Bool) (ops : Operands)
  /-- op 0x31; operands A : F64; result ui64 (49_convert.md R257) -/
  | f64_to_ui64 (rm : RoundingMode) (exact : Bool) (ops : Operands)
  /-- op 0x32; operands A : F64; result i32 (49_convert.md R258) -/
  | f64_to_i32 (rm : RoundingMode) (exact : Bool) (ops : Operands)
  /-- op 0x33; operands A : F64; result i64 (49_convert.md R259) -/
  | f64_to_i64 (rm : RoundingMode) (exact : Bool) (ops : Operands)
  /-- op 0x34; operands A : ui32; result F64 (49_convert.md R265) -/
  | ui32_to_f64 (rm : RoundingMode) (exact : Bool) (ops : Operands)
  /-- op 0x35; operands A : ui64; result F64 (49_convert.md R266) -/
  | ui64_to_f64 (rm : RoundingMode) (exact : Bool) (ops : Operands)
  /-- op 0x36; operands A : i32; result F64 (49_convert.md R267) -/
  | i32_to_f64 (rm : RoundingMode) (exact : Bool) (ops : Operands)
  /-- op 0x37; operands A : i64; result F64 (49_convert.md R268) -/
  | i64_to_f64 (rm : RoundingMode) (exact : Bool) (ops : Operands)
  /-- op 0x38; operands A : F64; result F32 (49_convert.md R271) -/
  | f64_to_f32 (rm : RoundingMode) (exact : Bool) (ops : Operands)
deriving DecidableEq, Repr

end Sys2Proof
end

