-- ==== Sys2Proof/WellFormed.lean ====
section
/-! DEFINITION. When a request is well formed (30_encoding.md R63), written on the number the command word stands
for, apart from the decoder's own field extraction, so that the theorem that the two agree says something. An
`Instr` is well formed by its type: its rounding mode is one of six. -/

namespace Sys2Proof

/-- Why a request is ill formed (30_encoding.md R63, R64). -/
inductive IllFormed where
  /-- `CMD[15:10]` is not 0 -/
  | reservedBits
  /-- `op` is not one of the 51 assigned codes -/
  | unassignedOp
  /-- `rm` is 6 or 7 in a kernel request -/
  | reservedRoundingMode
deriving DecidableEq, Repr

/-- The three control codes (30_encoding.md R58). -/
def isControlCode (op : Nat) : Bool := op == 0x1D || op == 0x1E || op == 0x1F

/-- The 48 kernel codes: 0x00 to 0x18 without 0x0F, under either value of the format bit (30_encoding.md R58, R59). -/
def isKernelCode (op : Nat) : Bool := op % 32 ≤ 0x18 && op % 32 != 0x0F

/-- R63, first check: the reserved bits are 0. -/
def Request.reservedClear (r : Request) : Bool := r.cmd.toNat < 1024

/-- R63, second check: the operation code is assigned. -/
def Request.opAssigned (r : Request) : Bool :=
  isControlCode (r.cmd.toNat % 64) || isKernelCode (r.cmd.toNat % 64)

/-- R63, third check: a kernel request has a rounding-mode code of at most 5. -/
def Request.modeAllowed (r : Request) : Bool :=
  isControlCode (r.cmd.toNat % 64) || r.cmd.toNat / 64 % 8 ≤ 5

/-- A well-formed request (30_encoding.md R63). -/
def Request.wellFormed (r : Request) : Bool := r.reservedClear && r.opAssigned && r.modeAllowed

end Sys2Proof
end

