-- ==== Sys2Proof/Decode.lean ====
section
/-! DEFINITION. The decoder of 30_encoding.md R64 (total, rejecting by name), the encoder written from the same
tables (R56, R58, R60), the assembler form of R65, and the numbering the host probes the decoder with. -/

namespace Sys2Proof

/-- `CMD[15:10]`, reserved (R56). -/
def CmdWord.rsv (c : CmdWord) : BitVec 6 := c.extractLsb' 10 6
/-- `CMD[9]`, the `exact` bit (R56). -/
def CmdWord.exact (c : CmdWord) : Bool := c.getLsbD 9
/-- `CMD[8:6]`, the rounding-mode code (R56). -/
def CmdWord.rm (c : CmdWord) : BitVec 3 := c.extractLsb' 6 3
/-- `CMD[5:0]`, the operation code (R56). -/
def CmdWord.op (c : CmdWord) : BitVec 6 := c.extractLsb' 0 6
/-- `CMD[9:6]`, the bits a control request ignores (R60, 93 entry I2). -/
def CmdWord.spare (c : CmdWord) : BitVec 4 := c.extractLsb' 6 4

/-- Rounding-mode codes (R60); 6 and 7 are reserved. -/
def RoundingMode.ofCode : BitVec 3 → Option RoundingMode
  | 0#3 => some .rne
  | 1#3 => some .rtz
  | 2#3 => some .rdn
  | 3#3 => some .rup
  | 4#3 => some .rmm
  | 5#3 => some .odd
  | _   => none

/-- The code of a rounding mode (R60). -/
def RoundingMode.code : RoundingMode → BitVec 3
  | .rne => 0#3
  | .rtz => 1#3
  | .rdn => 2#3
  | .rup => 3#3
  | .rmm => 4#3
  | .odd => 5#3

/-- What an operation code selects before its modifiers are read (R58, R64). -/
inductive OpForm where
  | control (mk : BitVec 4 → Operands → Instr)
  | kernel (mk : RoundingMode → Bool → Operands → Instr)

/-- The operation table (R58). Codes that are not listed are unassigned. -/
def opForm : BitVec 6 → Option OpForm
  | 0x00#6 => some (.kernel .f32_add)
  | 0x01#6 => some (.kernel .f32_sub)
  | 0x02#6 => some (.kernel .f32_mul)
  | 0x03#6 => some (.kernel .f32_div)
  | 0x04#6 => some (.kernel .f32_rem)
  | 0x05#6 => some (.kernel .f32_sqrt)
  | 0x06#6 => some (.kernel .f32_mulAdd)
  | 0x07#6 => some (.kernel .f32_roundToInt)
  | 0x08#6 => some (.kernel .f32_eq)
  | 0x09#6 => some (.kernel .f32_le)
  | 0x0A#6 => some (.kernel .f32_lt)
  | 0x0B#6 => some (.kernel .f32_eq_signaling)
  | 0x0C#6 => some (.kernel .f32_le_quiet)
  | 0x0D#6 => some (.kernel .f32_lt_quiet)
  | 0x0E#6 => some (.kernel .f32_classify)
  | 0x10#6 => some (.kernel .f32_to_ui32)
  | 0x11#6 => some (.kernel .f32_to_ui64)
  | 0x12#6 => some (.kernel .f32_to_i32)
  | 0x13#6 => some (.kernel .f32_to_i64)
  | 0x14#6 => some (.kernel .ui32_to_f32)
  | 0x15#6 => some (.kernel .ui64_to_f32)
  | 0x16#6 => some (.kernel .i32_to_f32)
  | 0x17#6 => some (.kernel .i64_to_f32)
  | 0x18#6 => some (.kernel .f32_to_f64)
  | 0x1D#6 => some (.control .ctx_init)
  | 0x1E#6 => some (.control .flags_reset)
  | 0x1F#6 => some (.control .flags_read)
  | 0x20#6 => some (.kernel .f64_add)
  | 0x21#6 => some (.kernel .f64_sub)
  | 0x22#6 => some (.kernel .f64_mul)
  | 0x23#6 => some (.kernel .f64_div)
  | 0x24#6 => some (.kernel .f64_rem)
  | 0x25#6 => some (.kernel .f64_sqrt)
  | 0x26#6 => some (.kernel .f64_mulAdd)
  | 0x27#6 => some (.kernel .f64_roundToInt)
  | 0x28#6 => some (.kernel .f64_eq)
  | 0x29#6 => some (.kernel .f64_le)
  | 0x2A#6 => some (.kernel .f64_lt)
  | 0x2B#6 => some (.kernel .f64_eq_signaling)
  | 0x2C#6 => some (.kernel .f64_le_quiet)
  | 0x2D#6 => some (.kernel .f64_lt_quiet)
  | 0x2E#6 => some (.kernel .f64_classify)
  | 0x30#6 => some (.kernel .f64_to_ui32)
  | 0x31#6 => some (.kernel .f64_to_ui64)
  | 0x32#6 => some (.kernel .f64_to_i32)
  | 0x33#6 => some (.kernel .f64_to_i64)
  | 0x34#6 => some (.kernel .ui32_to_f64)
  | 0x35#6 => some (.kernel .ui64_to_f64)
  | 0x36#6 => some (.kernel .i32_to_f64)
  | 0x37#6 => some (.kernel .i64_to_f64)
  | 0x38#6 => some (.kernel .f64_to_f32)
  | _ => none

/-- `Decode` (R64): the reserved bits first, then the operation code, then the rounding mode of a kernel. -/
def decode (r : Request) : Except IllFormed Instr :=
  if r.cmd.rsv ≠ 0#6 then .error .reservedBits
  else match opForm r.cmd.op with
    | none => .error .unassignedOp
    | some (.control mk) => .ok (mk r.cmd.spare r.ops)
    | some (.kernel mk) =>
      match RoundingMode.ofCode r.cmd.rm with
      | none => .error .reservedRoundingMode
      | some rm => .ok (mk rm r.cmd.exact r.ops)

/-- The command word of a kernel request: `(exact << 9) | (rm << 6) | op` (R65). -/
def kernelCmd (op : BitVec 6) (rm : RoundingMode) (exact : Bool) : CmdWord :=
  0#6 ++ BitVec.ofBool exact ++ rm.code ++ op

/-- The command word of a control request, `CMD[9:6]` as given. -/
def controlCmd (op : BitVec 6) (spare : BitVec 4) : CmdWord := 0#6 ++ spare ++ op

/-- The request a decoded instruction stands for, from R56, R58 and R60. -/
def encode : Instr → Request
  | .f32_add rm exact ops => ⟨kernelCmd 0x00#6 rm exact, ops⟩
  | .f32_sub rm exact ops => ⟨kernelCmd 0x01#6 rm exact, ops⟩
  | .f32_mul rm exact ops => ⟨kernelCmd 0x02#6 rm exact, ops⟩
  | .f32_div rm exact ops => ⟨kernelCmd 0x03#6 rm exact, ops⟩
  | .f32_rem rm exact ops => ⟨kernelCmd 0x04#6 rm exact, ops⟩
  | .f32_sqrt rm exact ops => ⟨kernelCmd 0x05#6 rm exact, ops⟩
  | .f32_mulAdd rm exact ops => ⟨kernelCmd 0x06#6 rm exact, ops⟩
  | .f32_roundToInt rm exact ops => ⟨kernelCmd 0x07#6 rm exact, ops⟩
  | .f32_eq rm exact ops => ⟨kernelCmd 0x08#6 rm exact, ops⟩
  | .f32_le rm exact ops => ⟨kernelCmd 0x09#6 rm exact, ops⟩
  | .f32_lt rm exact ops => ⟨kernelCmd 0x0A#6 rm exact, ops⟩
  | .f32_eq_signaling rm exact ops => ⟨kernelCmd 0x0B#6 rm exact, ops⟩
  | .f32_le_quiet rm exact ops => ⟨kernelCmd 0x0C#6 rm exact, ops⟩
  | .f32_lt_quiet rm exact ops => ⟨kernelCmd 0x0D#6 rm exact, ops⟩
  | .f32_classify rm exact ops => ⟨kernelCmd 0x0E#6 rm exact, ops⟩
  | .f32_to_ui32 rm exact ops => ⟨kernelCmd 0x10#6 rm exact, ops⟩
  | .f32_to_ui64 rm exact ops => ⟨kernelCmd 0x11#6 rm exact, ops⟩
  | .f32_to_i32 rm exact ops => ⟨kernelCmd 0x12#6 rm exact, ops⟩
  | .f32_to_i64 rm exact ops => ⟨kernelCmd 0x13#6 rm exact, ops⟩
  | .ui32_to_f32 rm exact ops => ⟨kernelCmd 0x14#6 rm exact, ops⟩
  | .ui64_to_f32 rm exact ops => ⟨kernelCmd 0x15#6 rm exact, ops⟩
  | .i32_to_f32 rm exact ops => ⟨kernelCmd 0x16#6 rm exact, ops⟩
  | .i64_to_f32 rm exact ops => ⟨kernelCmd 0x17#6 rm exact, ops⟩
  | .f32_to_f64 rm exact ops => ⟨kernelCmd 0x18#6 rm exact, ops⟩
  | .ctx_init spare ops => ⟨controlCmd 0x1D#6 spare, ops⟩
  | .flags_reset spare ops => ⟨controlCmd 0x1E#6 spare, ops⟩
  | .flags_read spare ops => ⟨controlCmd 0x1F#6 spare, ops⟩
  | .f64_add rm exact ops => ⟨kernelCmd 0x20#6 rm exact, ops⟩
  | .f64_sub rm exact ops => ⟨kernelCmd 0x21#6 rm exact, ops⟩
  | .f64_mul rm exact ops => ⟨kernelCmd 0x22#6 rm exact, ops⟩
  | .f64_div rm exact ops => ⟨kernelCmd 0x23#6 rm exact, ops⟩
  | .f64_rem rm exact ops => ⟨kernelCmd 0x24#6 rm exact, ops⟩
  | .f64_sqrt rm exact ops => ⟨kernelCmd 0x25#6 rm exact, ops⟩
  | .f64_mulAdd rm exact ops => ⟨kernelCmd 0x26#6 rm exact, ops⟩
  | .f64_roundToInt rm exact ops => ⟨kernelCmd 0x27#6 rm exact, ops⟩
  | .f64_eq rm exact ops => ⟨kernelCmd 0x28#6 rm exact, ops⟩
  | .f64_le rm exact ops => ⟨kernelCmd 0x29#6 rm exact, ops⟩
  | .f64_lt rm exact ops => ⟨kernelCmd 0x2A#6 rm exact, ops⟩
  | .f64_eq_signaling rm exact ops => ⟨kernelCmd 0x2B#6 rm exact, ops⟩
  | .f64_le_quiet rm exact ops => ⟨kernelCmd 0x2C#6 rm exact, ops⟩
  | .f64_lt_quiet rm exact ops => ⟨kernelCmd 0x2D#6 rm exact, ops⟩
  | .f64_classify rm exact ops => ⟨kernelCmd 0x2E#6 rm exact, ops⟩
  | .f64_to_ui32 rm exact ops => ⟨kernelCmd 0x30#6 rm exact, ops⟩
  | .f64_to_ui64 rm exact ops => ⟨kernelCmd 0x31#6 rm exact, ops⟩
  | .f64_to_i32 rm exact ops => ⟨kernelCmd 0x32#6 rm exact, ops⟩
  | .f64_to_i64 rm exact ops => ⟨kernelCmd 0x33#6 rm exact, ops⟩
  | .ui32_to_f64 rm exact ops => ⟨kernelCmd 0x34#6 rm exact, ops⟩
  | .ui64_to_f64 rm exact ops => ⟨kernelCmd 0x35#6 rm exact, ops⟩
  | .i32_to_f64 rm exact ops => ⟨kernelCmd 0x36#6 rm exact, ops⟩
  | .i64_to_f64 rm exact ops => ⟨kernelCmd 0x37#6 rm exact, ops⟩
  | .f64_to_f32 rm exact ops => ⟨kernelCmd 0x38#6 rm exact, ops⟩

/-- One line of the assembler syntax of R65, tokens already read: an absent rounding-mode name is `none`, absent
operands are left out. -/
inductive AsmLine where
  | kernel (op : BitVec 6) (rm : Option RoundingMode) (exact : Bool) (operands : List Word)
  | ctxInit (after : Bool)
  | flagsReset
  | flagsRead
deriving DecidableEq, Repr

/-- Operands of an assembler line in order, unused operand fields 0 (R65). -/
def asmOperands (operands : List Word) : Operands :=
  ⟨operands.getD 0 0, operands.getD 1 0, operands.getD 2 0⟩

/-- The encoding of an assembler line (R65): an absent rounding mode means `near_even`. -/
def assemble : AsmLine → Request
  | .kernel op rm exact operands => ⟨kernelCmd op (rm.getD .rne) exact, asmOperands operands⟩
  | .ctxInit after => ⟨controlCmd 0x1D#6 0#4, asmOperands [if after then 1 else 0]⟩
  | .flagsReset => ⟨controlCmd 0x1E#6 0#4, asmOperands []⟩
  | .flagsRead => ⟨controlCmd 0x1F#6 0#4, asmOperands []⟩

/-- The request whose bits are `w`: `CMD` in bits 15 to 0, then `A`, `B`, `C` of 64 bits each (log entry 4). -/
def Request.ofBits (w : Nat) : Request :=
  ⟨BitVec.ofNat 16 w, BitVec.ofNat 64 (w >>> 16), BitVec.ofNat 64 (w >>> 80), BitVec.ofNat 64 (w >>> 144)⟩

/-- The instruction the decoder reads from a request of `nbits` given bits `w`, all bits above them 0. -/
def decodeTableWord (nbits w : Nat) : Option Instr :=
  match decode (Request.ofBits (w % 2 ^ nbits)) with
  | .ok i => some i
  | .error _ => none

end Sys2Proof
end

