-- ==== Sys2Proof/Config.lean ====
section
/-! DEFINITION. The five configuration parameters of 00_scope.md R7, with the values the spec decides.
They are configuration and not state: no request reaches them (10_state.md R34). The block has no free value
(93_implementation_defined.md, end of Part 1), so nothing here is opaque. -/

namespace Sys2Proof

/-- The tininess-detection mode: detect before or after rounding (00_scope.md R12, 10_state.md R23). -/
inductive Tininess where
  | before
  | after
deriving DecidableEq, Repr

/-- `P_ODD_TO_INT`: what round-odd does when a value is rounded to an integer (43_rounding_engine.md R138). -/
inductive OddToInt where
  | rtz
  | jam
deriving DecidableEq, Repr

/-- A NaN sentinel for each of the four integer formats (49_convert.md R251). -/
structure NaNSentinels where
  ui32 : BitVec 32
  ui64 : BitVec 64
  i32  : BitVec 32
  i64  : BitVec 64
deriving DecidableEq, Repr

/-- `P_NAN_TO_INT`: a NaN converts to the largest integer, or to sentinels of its own (49_convert.md R251). -/
inductive NaNToInt where
  | maxPositive
  | other (sentinels : NaNSentinels)
deriving DecidableEq, Repr

/-- The configuration record (00_scope.md R7). -/
structure Config where
  /-- `P_RESET_TININESS` -/
  resetTininess : Tininess
  /-- `P_ODD_TO_INT` -/
  oddToInt : OddToInt
  /-- `P_FMA_INVALID_ZERO_INF_QNAN` -/
  fmaInvalidZeroInfQNaN : Bool
  /-- `P_NAN_TO_INT` -/
  nanToInt : NaNToInt
  /-- `P_CLASSIFY_NAN_EXTRA_BIT`: none, or one of bits 0 to 7 -/
  classifyNaNExtraBit : Option (Fin 8)
deriving DecidableEq, Repr

/-- The decided values of 00_scope.md R7 (92_eei_decisions.md D11, D14, D15, D16, D17). Log entry 5. -/
def config : Config where
  resetTininess := .after
  oddToInt := .rtz
  fmaInvalidZeroInfQNaN := true
  nanToInt := .maxPositive
  classifyNaNExtraBit := none

end Sys2Proof
end

