-- ==== Sys2Proof/Machine/Format.lean ====
section
/-! DEFINITION. The two floating-point formats and their parameters (00_scope.md R6), the four integer formats
(49_convert.md R250). -/

namespace Sys2Proof.Machine

/-- The two floating-point formats, binary32 and binary64 (00_scope.md R6). -/
inductive Fmt where
  | f32
  | f64
deriving DecidableEq, Repr

/-- `k`, the width of a pattern (R6). -/
abbrev Fmt.k : Fmt → Nat
  | .f32 => 32
  | .f64 => 64

/-- `w`, the width of the exponent field (R6). -/
def Fmt.w : Fmt → Nat
  | .f32 => 8
  | .f64 => 11

/-- `t`, the width of the fraction field (R6). -/
def Fmt.t : Fmt → Nat
  | .f32 => 23
  | .f64 => 52

/-- `p`, the precision (R6). -/
def Fmt.p (fmt : Fmt) : Nat := fmt.t + 1

/-- `bias` (R6). -/
def Fmt.bias (fmt : Fmt) : Nat := 2 ^ (fmt.w - 1) - 1

/-- `EMAX`, the all-ones exponent code (R6). -/
def Fmt.expMax (fmt : Fmt) : Nat := 2 ^ fmt.w - 1

/-- `emin`, the exponent of the smallest normal value (R6). -/
def Fmt.emin (fmt : Fmt) : Int := 1 - (fmt.bias : Int)

/-- `emax`, the exponent of the largest finite binade (R6). -/
def Fmt.emax (fmt : Fmt) : Int := fmt.bias

/-- `G`, the number of rounding bits of the rounding engine's significand (R6). -/
def Fmt.g (fmt : Fmt) : Nat := fmt.k - 1 - fmt.p

/-- The other float format (44_nan_and_flag_logic.md R167). -/
def Fmt.other : Fmt → Fmt
  | .f32 => .f64
  | .f64 => .f32

/-- A float is its raw pattern (40_bit_pack_unpack.md R91). -/
abbrev Pat (fmt : Fmt) := BitVec fmt.k

/-- What a kernel with a float result returns: the pattern and the flags it raised (00_scope.md R11). -/
abbrev FloatResult (fmt : Fmt) := Pat fmt × FlagSet

/-- The four integer formats (49_convert.md R250). -/
inductive IntFmt where
  | ui32
  | ui64
  | i32
  | i64
deriving DecidableEq, Repr

/-- The width `N` of an integer format (49_convert.md R250). -/
abbrev IntFmt.width : IntFmt → Nat
  | .ui32 => 32
  | .ui64 => 64
  | .i32 => 32
  | .i64 => 64

/-- `MIN(ity)` (49_convert.md R250). -/
def IntFmt.min : IntFmt → Int
  | .ui32 => 0
  | .ui64 => 0
  | .i32 => -(2 ^ 31)
  | .i64 => -(2 ^ 63)

/-- `MAX(ity)` (49_convert.md R250). -/
def IntFmt.max : IntFmt → Int
  | .ui32 => 2 ^ 32 - 1
  | .ui64 => 2 ^ 64 - 1
  | .i32 => 2 ^ 31 - 1
  | .i64 => 2 ^ 63 - 1

/-- `IntVal(ity, x)`: unsigned or two's complement (49_convert.md R250). -/
def intVal (ity : IntFmt) (x : BitVec ity.width) : Int :=
  match ity with
  | .ui32 | .ui64 => x.toNat
  | .i32 | .i64 => x.toInt

/-- `IntPat(ity, v) = v mod 2^N` (49_convert.md R250). -/
def intPat (ity : IntFmt) (v : Int) : BitVec ity.width := BitVec.ofInt ity.width v

/-- An integer pattern as a 64-bit result field: zero-extended, for the signed formats too (49_convert.md R250). -/
abbrev IntResult (ity : IntFmt) := BitVec ity.width × FlagSet

end Sys2Proof.Machine
end

