-- ==== Sys2Proof/Machine/Codec.lean ====
section
/-! DEFINITION. The sub-block bit_pack_unpack (40_bit_pack_unpack.md): field extraction, packing, NaN tests, class
predicates, constants, sign operations, and the value of a pattern (00_scope.md R13). -/

namespace Sys2Proof.Machine

/-- `Sign(fmt, a)`, true for a set sign bit (R81). -/
def signOf (fmt : Fmt) (a : Pat fmt) : Bool := a.getLsbD (fmt.k - 1)

/-- `Exp(fmt, a)`, the biased exponent (R81). -/
def expOf (fmt : Fmt) (a : Pat fmt) : Nat := (a.extractLsb' fmt.t fmt.w).toNat

/-- `Frac(fmt, a)` (R81). -/
def fracOf (fmt : Fmt) (a : Pat fmt) : Nat := (a.extractLsb' 0 fmt.t).toNat

/-- `Pack(fmt, s, e, f)`: an addition modulo `2^k`, not a concatenation (R82). -/
def pack (fmt : Fmt) (s : Bool) (e : Int) (f : Nat) : Pat fmt :=
  BitVec.ofInt fmt.k (s.toNat * 2 ^ (fmt.k - 1) + e * 2 ^ fmt.t + f)

/-- `IsNaN` (R84). -/
def isNaN (fmt : Fmt) (a : Pat fmt) : Bool := expOf fmt a == fmt.expMax && fracOf fmt a != 0

/-- `IsSigNaN` (R85). -/
def isSigNaN (fmt : Fmt) (a : Pat fmt) : Bool :=
  expOf fmt a == fmt.expMax && !a.getLsbD (fmt.t - 1) && a.extractLsb' 0 (fmt.t - 1) != 0

/-- `IsQuietNaN` (R85). -/
def isQuietNaN (fmt : Fmt) (a : Pat fmt) : Bool := isNaN fmt a && a.getLsbD (fmt.t - 1)

/-- `IsInf` (R86). -/
def isInf (fmt : Fmt) (a : Pat fmt) : Bool := expOf fmt a == fmt.expMax && fracOf fmt a == 0

/-- `IsZero` (R86, R89). -/
def isZero (fmt : Fmt) (a : Pat fmt) : Bool := expOf fmt a == 0 && fracOf fmt a == 0

/-- `IsSubnormal` (R86, R89). -/
def isSubnormal (fmt : Fmt) (a : Pat fmt) : Bool := expOf fmt a == 0 && fracOf fmt a != 0

/-- `IsNormal` (R86). -/
def isNormal (fmt : Fmt) (a : Pat fmt) : Bool := 0 < expOf fmt a && expOf fmt a < fmt.expMax

/-- `IsFinite` (R86). -/
def isFinite (fmt : Fmt) (a : Pat fmt) : Bool := expOf fmt a < fmt.expMax

/-- `ZERO(fmt, s)` (R87). -/
def zeroPat (fmt : Fmt) (s : Bool) : Pat fmt := pack fmt s 0 0

/-- `INF(fmt, s)` (R87). -/
def infPat (fmt : Fmt) (s : Bool) : Pat fmt := pack fmt s fmt.expMax 0

/-- `MAXFIN(fmt, s) = INF(fmt, s) - 1` (R87). -/
def maxFinPat (fmt : Fmt) (s : Bool) : Pat fmt := infPat fmt s - 1

/-- `CNAN(fmt)`, the canonical NaN (R88). -/
def cnan (fmt : Fmt) : Pat fmt := pack fmt false fmt.expMax (2 ^ (fmt.t - 1))

/-- `Neg(fmt, a) = a ^ 2^(k-1)` (R90). -/
def negPat (fmt : Fmt) (a : Pat fmt) : Pat fmt := a ^^^ BitVec.ofNat fmt.k (2 ^ (fmt.k - 1))

/-- `Abs(fmt, a) = a & (2^(k-1) - 1)` (R90). -/
def absPat (fmt : Fmt) (a : Pat fmt) : Pat fmt := a &&& BitVec.ofNat fmt.k (2 ^ (fmt.k - 1) - 1)

/-- `SetSign` (R92). -/
def setSign (fmt : Fmt) (a : Pat fmt) (s : Bool) : Pat fmt := pack fmt s (expOf fmt a) (fracOf fmt a)

/-- The exponent setter: `Pack` of two extracted fields and one new one (R92). -/
def setExp (fmt : Fmt) (a : Pat fmt) (e : Int) : Pat fmt := pack fmt (signOf fmt a) e (fracOf fmt a)

/-- The fraction setter (R92). -/
def setFrac (fmt : Fmt) (a : Pat fmt) (f : Nat) : Pat fmt := pack fmt (signOf fmt a) (expOf fmt a) f

/-- The sign and the integers `m`, `q` with `|value| = m * 2^q` (00_scope.md R13). -/
structure Unpacked where
  sign : Bool
  m : Nat
  q : Int
deriving DecidableEq, Repr

/-- `Unpack(fmt, a)` of a finite pattern (00_scope.md R13). A zero gives `m = 0` and `q = emin - t`, which is how
45_add_sub.md R180 takes a zero operand. -/
def unpack (fmt : Fmt) (a : Pat fmt) : Unpacked :=
  if expOf fmt a = 0 then ⟨signOf fmt a, fracOf fmt a, fmt.emin - fmt.t⟩
  else ⟨signOf fmt a, 2 ^ fmt.t + fracOf fmt a, (expOf fmt a : Int) - fmt.bias - fmt.t⟩

/-- `(-1)^s * m`. -/
def signed (s : Bool) (m : Int) : Int := if s then -m else m

end Sys2Proof.Machine
end

