-- ==== Sys2Proof/Machine/Flags.lean ====
section
/-! DEFINITION. The sub-block exception_flag_logic, its combinational part: the flag constants (00_scope.md R12,
10_state.md R21), the NaN rule (44_nan_and_flag_logic.md R150), the flag predicates (R173), and the flag sets a
request can return (R165). -/

namespace Sys2Proof.Machine

/-- No flag. -/
def noFlags : FlagSet := 0x00#5
/-- inexact, bit 0 (10_state.md R21) -/
def NX : FlagSet := 0x01#5
/-- underflow, bit 1 (10_state.md R21) -/
def UF : FlagSet := 0x02#5
/-- overflow, bit 2 (10_state.md R21) -/
def OF : FlagSet := 0x04#5
/-- infinite (division by zero), bit 3 (10_state.md R21) -/
def DZ : FlagSet := 0x08#5
/-- invalid, bit 4 (10_state.md R21) -/
def NV : FlagSet := 0x10#5

/-- The flag set that holds `f` exactly when the condition does. -/
def flagIf (c : Bool) (f : FlagSet) : FlagSet := if c then f else noFlags

/-- `is_inexact` (44_nan_and_flag_logic.md R173, 30_encoding.md R66). -/
def isInexact (f : FlagSet) : Bool := f.getLsbD 0
/-- `is_underflow` (R173) -/
def isUnderflow (f : FlagSet) : Bool := f.getLsbD 1
/-- `is_overflow` (R173) -/
def isOverflow (f : FlagSet) : Bool := f.getLsbD 2
/-- `is_infinite` (R173) -/
def isInfinite (f : FlagSet) : Bool := f.getLsbD 3
/-- `is_invalid` (R173) -/
def isInvalid (f : FlagSet) : Bool := f.getLsbD 4

/-- `NaNResult(fmt, ops)` (R150): the canonical NaN, with `NV` iff some operand is a signaling NaN. -/
def nanResult (fmt : Fmt) (ops : List (Pat fmt)) : FloatResult fmt :=
  (cnan fmt, flagIf (ops.any (isSigNaN fmt)) NV)

/-- The invalid operations of R152: the canonical NaN with `NV`. -/
def invalidResult (fmt : Fmt) : FloatResult fmt := (cnan fmt, NV)

/-- The flag sets a single request can return (60_exceptions.md R282). -/
def legalFlagSets : List FlagSet := [noFlags, NX, UF ||| NX, OF ||| NX, DZ, NV]

/-- The response flags the spec allows one request (R282). -/
def legalFL (fl : FlagSet) : Bool := legalFlagSets.contains fl

end Sys2Proof.Machine
end

