-- ==== Sys2Proof/Machine/Shift.lean ====
section
/-! DEFINITION. The sub-block sticky_shifter and the wide-integer helpers (41_sticky_shifter.md), with the integer
functions of the notation (00_scope.md R10): bit length and integer square root. Everything is a function on natural
numbers that stand for words of the stated width. -/

namespace Sys2Proof.Machine

/-- `bitlen(a)` (00_scope.md R10). -/
def bitlen (a : Nat) : Nat := if a = 0 then 0 else Nat.log2 a + 1

/-- One bit of the integer square root after another, from bit `i - 1` down. -/
def isqrtLoop (a : Nat) : Nat → Nat → Nat
  | 0, r => r
  | i + 1, r => isqrtLoop a i (if (r + 2 ^ i) * (r + 2 ^ i) ≤ a then r + 2 ^ i else r)

/-- `isqrt(a)`, the largest `r` with `r * r ≤ a` (00_scope.md R10). -/
def isqrt (a : Nat) : Nat := isqrtLoop a ((bitlen a + 1) / 2) 0

/-- 1 when the proposition-as-Bool holds, 0 otherwise. -/
def jamBit (c : Bool) : Nat := if c then 1 else 0

/-- `ShiftRightJam(N, a, dist)` (R101). -/
def shiftRightJam (n a dist : Nat) : Nat :=
  if dist = 0 then a
  else if n ≤ dist then jamBit (a != 0)
  else (a >>> dist) ||| jamBit (a % 2 ^ dist != 0)

/-- `ShiftRightJam32` (R102). -/
def shiftRightJam32 (a : BitVec 32) (dist : Nat) : BitVec 32 := BitVec.ofNat 32 (shiftRightJam 32 a.toNat dist)

/-- `ShiftRightJam64` (R102). -/
def shiftRightJam64 (a : BitVec 64) (dist : Nat) : BitVec 64 := BitVec.ofNat 64 (shiftRightJam 64 a.toNat dist)

/-- A 128-bit value as two words, `hi * 2^64 + lo` (R102, R106). -/
structure Wide where
  hi : BitVec 64
  lo : BitVec 64
deriving DecidableEq, Repr

/-- The number a 128-bit value stands for. -/
def Wide.toNat (x : Wide) : Nat := x.hi.toNat * 2 ^ 64 + x.lo.toNat

/-- The 128-bit value of a number, modulo `2^128`. -/
def Wide.ofNat (x : Nat) : Wide := ⟨BitVec.ofNat 64 (x / 2 ^ 64), BitVec.ofNat 64 x⟩

/-- `ShiftRightJam128` (R102). -/
def shiftRightJam128 (a : Wide) (dist : Nat) : Wide := Wide.ofNat (shiftRightJam 128 a.toNat dist)

/-- The short-distance variant: the same function on `1 ≤ dist < N`, outside its domain nothing
(R103; 93_implementation_defined.md I14; log entry 9). -/
def shortShiftRightJam (n a dist : Nat) : Option Nat :=
  if 1 ≤ dist ∧ dist < n then some (shiftRightJam n a dist) else none

/-- `ShiftRightJam64Extra(a, extra, dist)` (R104): the shifted word and the word of lost bits. -/
def shiftRightJam64Extra (a extra dist : Nat) : Nat × Nat :=
  if dist = 0 then (a, extra)
  else
    let v := if dist < 64 then a >>> dist else 0
    let x := if dist < 64 then (a <<< (64 - dist)) % 2 ^ 64 else if dist = 64 then a else jamBit (a != 0)
    (v, x ||| jamBit (extra != 0))

/-- `Add128` (R106). -/
def add128 (a b : Wide) : Wide := Wide.ofNat (a.toNat + b.toNat)

/-- `Sub128` (R106), wrapping modulo `2^128`. -/
def sub128 (a b : Wide) : Wide := Wide.ofNat (a.toNat + 2 ^ 128 - b.toNat)

/-- `Mul64To128` (R106). -/
def mul64To128 (a b : BitVec 64) : Wide := Wide.ofNat (a.toNat * b.toNat)

/-- `Clz(N, a)` (R107). -/
def clz (n a : Nat) : Nat := n - bitlen a

end Sys2Proof.Machine
end

