-- ==== Sys2Proof/Machine/Rounding.lean ====
section
/-! DEFINITION. The sub-block rounding_engine (43_rounding_engine.md): round and pack, the bridge from an exact
value, the encoding of a representable value, and the rounding of a magnitude to an integer. -/

namespace Sys2Proof.Machine

/-- `half = 2^(G-1)` (R131). -/
def Fmt.half (fmt : Fmt) : Nat := 2 ^ (fmt.g - 1)
/-- `mask = 2^G - 1` (R131). -/
def Fmt.mask (fmt : Fmt) : Nat := 2 ^ fmt.g - 1
/-- `top = 2^(k-1)` (R131). -/
def Fmt.top (fmt : Fmt) : Nat := 2 ^ (fmt.k - 1)

/-- The rounding increment (R131 step 1, R133). -/
def roundInc (fmt : Fmt) (sign : Bool) : RoundingMode → Nat
  | .rne | .rmm => fmt.half
  | .rdn => if sign then fmt.mask else 0
  | .rup => if sign then 0 else fmt.mask
  | .rtz | .odd => 0

/-- The result of an overflow (R131 step 3, R135): infinity when the increment is not 0, else the largest finite
magnitude. -/
def overflowResult (fmt : Fmt) (sign : Bool) (rm : RoundingMode) : FloatResult fmt :=
  (if roundInc fmt sign rm ≠ 0 then infPat fmt sign else maxFinPat fmt sign, OF ||| NX)

/-- R131 step 2's `tiny`, for a negative `exp` (R134). -/
def isTiny (fmt : Fmt) (sign : Bool) (exp : Int) (sig : Nat) (rm : RoundingMode) (tm : Tininess) : Bool :=
  tm == .before || exp < -1 || sig + roundInc fmt sign rm < fmt.top

/-- R131 steps 4 and 5: add the increment, drop the round bits, inexact, round-odd, ties to even. `fl` holds the
flags raised so far. -/
def roundFinish (fmt : Fmt) (sign : Bool) (exp : Int) (sig : Nat) (rm : RoundingMode) (fl : FlagSet) :
    FloatResult fmt :=
  let rb := sig % 2 ^ fmt.g
  let n := (sig + roundInc fmt sign rm) >>> fmt.g
  let fl := fl ||| flagIf (rb != 0) NX
  if rb ≠ 0 ∧ rm = .odd then (pack fmt sign exp (n ||| 1), fl)
  else
    let n := if rm = .rne ∧ rb = fmt.half then n - n % 2 else n
    (pack fmt sign (if n = 0 then 0 else exp) n, fl)

/-- `RoundPack(fmt, sign, exp, sig, rm, tm)` (R131). -/
def roundPack (fmt : Fmt) (sign : Bool) (exp : Int) (sig : Nat) (rm : RoundingMode) (tm : Tininess) :
    FloatResult fmt :=
  if exp < 0 then
    let shifted := shiftRightJam fmt.k sig (-exp).toNat
    roundFinish fmt sign 0 shifted rm
      (flagIf (isTiny fmt sign exp sig rm tm && shifted % 2 ^ fmt.g != 0) UF)
  else if exp > fmt.expMax - 2 ∨ (exp = fmt.expMax - 2 ∧ fmt.top ≤ sig + roundInc fmt sign rm) then
    overflowResult fmt sign rm
  else roundFinish fmt sign exp sig rm noFlags

/-- `RoundExact(fmt, sign, M, sticky, E, rm, tm)` (R136): the magnitude `M * 2^E`, or one strictly between
`M * 2^E` and `(M+1) * 2^E` when `sticky` is set. -/
def roundExact (fmt : Fmt) (sign : Bool) (m : Nat) (sticky : Bool) (e : Int) (rm : RoundingMode) (tm : Tininess) :
    FloatResult fmt :=
  let w := fmt.k - 1
  let l := bitlen m
  let sig :=
    if w ≤ l then (m >>> (l - w)) ||| jamBit (m % 2 ^ (l - w) != 0 || sticky)
    else m <<< (w - l)
  roundPack fmt sign (e + ((l : Int) - w) + fmt.bias + (fmt.k - 3)) sig rm tm

/-- `PackExact(fmt, s, M, q)` (R142): the pattern of a representable magnitude `M * 2^q`. -/
def packExact (fmt : Fmt) (s : Bool) (m : Nat) (q : Int) : Pat fmt := (roundExact fmt s m false q .rtz .after).1

/-- The mode in force for rounding to an integer: `ODD` degrades to `RTZ` unless `P_ODD_TO_INT` is `jam` (R138). -/
def intMode (cfg : Config) (rm : RoundingMode) : RoundingMode :=
  if rm = .odd ∧ cfg.oddToInt = .rtz then .rtz else rm

/-- `RoundIntMag(sign, M, E, rm)` (R138): the magnitude `M * 2^E` rounded to an integer, and whether that changed it. -/
def roundIntMag (cfg : Config) (sign : Bool) (m : Nat) (e : Int) (rm : RoundingMode) : Nat × Bool :=
  if 0 ≤ e then (m <<< e.toNat, false)
  else
    let d := (-e).toNat
    let n := m >>> d
    let r := m % 2 ^ d
    let h := 2 ^ (d - 1)
    if r = 0 then (n, false)
    else
      (match intMode cfg rm with
        | .rne => if h < r ∨ (r = h ∧ n % 2 = 1) then n + 1 else n
        | .rmm => if h ≤ r then n + 1 else n
        | .rtz => n
        | .rdn => if sign then n + 1 else n
        | .rup => if sign then n else n + 1
        | .odd => n ||| 1, true)

/-- The out-of-range results and the in-range result of a rounded integer (R139, 49_convert.md R251). -/
def saturate (ity : IntFmt) (v : Int) (inexact exact : Bool) : IntResult ity :=
  if v < ity.min then (intPat ity ity.min, NV)
  else if ity.max < v then (intPat ity ity.max, NV)
  else (intPat ity v, flagIf (inexact && exact) NX)

/-- `RoundToIntFmt(ity, sign, sig, fb, rm, exact)` (R139): the value is `(-1)^sign * sig / 2^fb`. -/
def roundToIntFmt (cfg : Config) (ity : IntFmt) (sign : Bool) (sig fb : Nat) (rm : RoundingMode) (exact : Bool) :
    IntResult ity :=
  let r := roundIntMag cfg sign sig (-(fb : Int)) rm
  saturate ity (signed sign r.1) r.2 exact

/-- `RoundToUI32(sign, sig, rm, exact)`: 12 fraction bits (R139). -/
def roundToUI32 (cfg : Config) (sign : Bool) (sig : Nat) (rm : RoundingMode) (exact : Bool) : IntResult .ui32 :=
  roundToIntFmt cfg .ui32 sign sig 12 rm exact

end Sys2Proof.Machine
end

