-- ==== Sys2Proof/Machine/Normalizer.lean ====
section
/-! DEFINITION. The sub-block neon_normalizer (42_normalizer.md): subnormal normalisation and norm-round-pack. -/

namespace Sys2Proof.Machine

/-- `NormSubnormalSig(fmt, frac)` (R121). A zero fraction is outside its domain
(93_implementation_defined.md I13; log entry 9). -/
def normSubnormalSig (fmt : Fmt) (frac : Nat) : Option (Int × Nat) :=
  if frac = 0 then none
  else
    let sd := clz fmt.k frac - (fmt.k - fmt.p)
    some (1 - (sd : Int), frac <<< sd)

/-- The exponent and the significand, hidden bit in place, of a finite nonzero pattern: the opening lines of the
datapaths R191, R196, R206, R216. -/
def normOperand (fmt : Fmt) (a : Pat fmt) : Option (Int × Nat) :=
  if expOf fmt a = 0 then normSubnormalSig fmt (fracOf fmt a)
  else some (expOf fmt a, fracOf fmt a ||| 2 ^ fmt.t)

/-- `NormRoundPack(fmt, sign, exp, sig, rm, tm)` (R122), with its fast path. -/
def normRoundPack (fmt : Fmt) (sign : Bool) (exp : Int) (sig : Nat) (rm : RoundingMode) (tm : Tininess) :
    FloatResult fmt :=
  if sig = 0 then (pack fmt sign 0 0, noFlags)
  else
    let sd := clz fmt.k sig - 1
    let exp := exp - sd
    if fmt.g ≤ sd ∧ 0 ≤ exp ∧ exp < fmt.expMax - 2 then (pack fmt sign exp (sig <<< (sd - fmt.g)), noFlags)
    else roundPack fmt sign exp (sig <<< sd) rm tm

end Sys2Proof.Machine
end

