-- ==== Sys2Proof/Machine/Operands.lean ====
section
/-! DEFINITION. Operand assembly (30_encoding.md R57): every operand is a field of the request, whole for a 64-bit
format and its low half for a 32-bit one. -/

namespace Sys2Proof.Machine

/-- The pattern of format `fmt` in an operand field: `A[31:0]` or `A[63:0]`, the rest ignored (R57). -/
def patOf (fmt : Fmt) (x : Word) : Pat fmt := x.setWidth fmt.k

/-- The integer pattern of format `ity` in an operand field (R57). -/
def intOf (ity : IntFmt) (x : Word) : BitVec ity.width := x.setWidth ity.width

/-- The tininess code in `A[0]`: 0 before, 1 after (44_nan_and_flag_logic.md R170, 30_encoding.md R61). -/
def tininessOf (x : Word) : Tininess := if x.getLsbD 0 then .after else .before

/-- The encoding of `TININESS` (10_state.md R23). -/
def tininessCode : Tininess → BitVec 1
  | .before => 0#1
  | .after => 1#1

end Sys2Proof.Machine
end

