-- ==== Sys2Proof/Machine/State.lean ====
section
/-! DEFINITION. The state of one unit (10_state.md R20) with the host's pending inputs and the last response beside it,
the state after reset (10_state.md R33), and the reasons a step can stop. -/

namespace Sys2Proof.Machine

/-- The reasons the machine stops with a fault: none. "There are no exceptions/panics in the arithmetic kernel under
any input" (60_exceptions.md R280), and nothing in the block is `fault` or `stuck`
(93_implementation_defined.md, end of Part 1). Nothing raises a fault; safe. -/
inductive Fault
deriving DecidableEq, Repr

/-- The reasons a step gives no meaning. -/
inductive Refusal where
  /-- Raised by an arm of `exec` whose instruction has no meaning in the model. Safe: nothing is claimed of it. -/
  | notModelled (mnemonic : String)
  /-- Raised by `step` on an ill-formed request, which the spec says the machine refuses, with no next state
  (30_encoding.md R63, 60_exceptions.md R288). Safe: nothing is claimed of it. -/
  | illFormed (why : IllFormed)
deriving DecidableEq, Repr

/-- The state of one unit. `flags` and `tininess` are the spec's whole architectural state (10_state.md R20);
`inputs` and `response` are the model's own, for the request and response that pass between host and unit
(10_state.md R24, R25; log entries 1 and 2). -/
structure State where
  /-- `FLAGS` (10_state.md R21, R22) -/
  flags : FlagSet
  /-- `TININESS` (10_state.md R23) -/
  tininess : Tininess
  /-- the host's inputs the unit has not taken yet, oldest first (20_memory.md R47) -/
  inputs : List HostInput
  /-- the response to the most recent request, none when no request was answered since reset -/
  response : Option Response
deriving DecidableEq, Repr

/-- The state after reset: `FLAGS = 0`, `TININESS = P_RESET_TININESS` (10_state.md R33, 70_reset_and_hazards.md R300);
no input pending and no response given. -/
def State.reset : State where
  flags := 0#5
  tininess := config.resetTininess
  inputs := []
  response := none

/-- What one step or one meaning answers. -/
abbrev Out := Host.Outcome State Fault Refusal

end Sys2Proof.Machine
end

