-- ==== Sys2Proof/Machine/Ops.lean ====
section
/-! DEFINITION. The named operations over the state: ending a kernel request (44_nan_and_flag_logic.md R166), ending a
control request (R170 to R172), asserting reset (70_reset_and_hazards.md R300), and standing idle. There is no memory,
no register file and no trap (20_memory.md R40, 10_state.md R26, 60_exceptions.md R284, R285), so there is no operation
that reads a register, accesses memory, takes an exception or returns from one: an exceptional condition is a flag of
the response, accumulated by `State.accumulate`. -/

namespace Sys2Proof.Machine

/-- `FLAGS <- FLAGS | fl` (10_state.md R22). -/
def State.accumulate (s : State) (fl : FlagSet) : State := { s with flags := s.flags ||| fl }

/-- Gives the host the response `(z, fl)`. -/
def State.respond (s : State) (z : Word) (fl : FlagSet) : State := { s with response := some ⟨z, fl⟩ }

/-- The end of a kernel request (R166): the flags are accumulated and the response given, in one step. -/
def State.finishKernel (s : State) (z : Word) (fl : FlagSet) : Out := .next ((s.accumulate fl).respond z fl)

/-- The end of a kernel request whose result is a pattern of `n` bits: `Z := zext_64(z)` (R166, 30_encoding.md R57). -/
def State.finishPattern {n : Nat} (s : State) (r : BitVec n × FlagSet) : Out :=
  s.finishKernel (r.1.setWidth 64) r.2

/-- The end of a comparison: `Z` is 1 for true and 0 for false (10_state.md R25). -/
def State.finishTruth (s : State) (r : Bool × FlagSet) : Out :=
  s.finishKernel (if r.1 then 1 else 0) r.2

/-- Writes `FLAGS` and `TININESS` as a control request does (R170, R171). -/
def State.setContext (s : State) (flags : FlagSet) (tm : Tininess) : State :=
  { s with flags := flags, tininess := tm }

/-- The end of a control request: the response `(z, 0)` (R170 to R172). -/
def State.finishControl (s : State) (z : Word) : Out := .next (s.respond z noFlags)

/-- The unit after reset is asserted, with the inputs `rest` still to come (70_reset_and_hazards.md R300, R301): it
returns no response. -/
def State.afterReset (rest : List HostInput) : State := { State.reset with inputs := rest }

/-- The unit with its oldest input taken. -/
def State.taking (s : State) (rest : List HostInput) : State := { s with inputs := rest }

/-- A step with no input pending: nothing runs between requests (00_scope.md R9; log entry 3). -/
def State.idle (s : State) : Out := .next s

end Sys2Proof.Machine
end

