-- ==== Sys2Proof/Machine/AddSub.lean ====
section
/-! DEFINITION. The sub-block fp_adder (45_add_sub.md): the value-level kernel R180, the datapath R181 and R182, and
the four requests. -/

namespace Sys2Proof.Machine

/-- The sign of an exact zero sum: negative only for round-toward-negative (R180). -/
def cancelSign (rm : RoundingMode) : Bool := rm == .rdn

/-- `AddSub(fmt, neg, a, b, rm, tm)` (R180). -/
def addSub (fmt : Fmt) (neg : Bool) (a b : Pat fmt) (rm : RoundingMode) (tm : Tininess) : FloatResult fmt :=
  let sa := signOf fmt a
  let sb := signOf fmt b ^^ neg
  if isNaN fmt a || isNaN fmt b then nanResult fmt [a, b]
  else if isInf fmt a then
    if isInf fmt b && sa != sb then invalidResult fmt else (a, noFlags)
  else if isInf fmt b then (infPat fmt sb, noFlags)
  else if isZero fmt a && isZero fmt b then
    (zeroPat fmt (if sa = sb then sa else cancelSign rm), noFlags)
  else
    let ua := unpack fmt a
    let ub := unpack fmt b
    let q := min ua.q ub.q
    let v := signed sa (ua.m * 2 ^ (ua.q - q).toNat) + signed sb (ub.m * 2 ^ (ub.q - q).toNat)
    if v = 0 then (zeroPat fmt (cancelSign rm), noFlags)
    else roundExact fmt (v < 0) v.natAbs false q rm tm

/-- `Add` (R180). -/
def add (fmt : Fmt) (a b : Pat fmt) (rm : RoundingMode) (tm : Tininess) : FloatResult fmt := addSub fmt false a b rm tm

/-- `Sub` (R180). -/
def sub (fmt : Fmt) (a b : Pat fmt) (rm : RoundingMode) (tm : Tininess) : FloatResult fmt := addSub fmt true a b rm tm

/-- An operand aligned for the adder: pre-shifted by `pre`, the hidden bit added, or doubled when subnormal
(R181, R182). -/
def alignedFrac (fmt : Fmt) (pre : Nat) (a : Pat fmt) : Nat :=
  let x := fracOf fmt a <<< pre
  x + (if expOf fmt a ≠ 0 then 2 ^ fmt.t <<< pre else x)

/-- `AddMags(fmt, a, b, sign, rm, tm)`, the like-signs datapath on finite patterns (R181). -/
def addMags (fmt : Fmt) (a b : Pat fmt) (sign : Bool) (rm : RoundingMode) (tm : Tininess) : FloatResult fmt :=
  let ea := expOf fmt a
  let eb := expOf fmt b
  let hidden := 2 ^ (fmt.k - 3)
  if ea = eb then
    if ea = 0 then (a + BitVec.ofNat fmt.k (fracOf fmt b), noFlags)
    else roundPack fmt sign ea ((2 ^ fmt.p + fracOf fmt a + fracOf fmt b) <<< (fmt.g - 1)) rm tm
  else
    let x := if ea < eb then shiftRightJam fmt.k (alignedFrac fmt (fmt.g - 1) a) (eb - ea)
      else fracOf fmt a <<< (fmt.g - 1)
    let y := if ea < eb then fracOf fmt b <<< (fmt.g - 1)
      else shiftRightJam fmt.k (alignedFrac fmt (fmt.g - 1) b) (ea - eb)
    let ez : Int := max ea eb
    let sz := hidden + x + y
    if sz < 2 * hidden then roundPack fmt sign (ez - 1) (sz <<< 1) rm tm
    else roundPack fmt sign ez sz rm tm

/-- `SubMags(fmt, a, b, sign, rm, tm)`, the opposite-signs datapath on finite patterns (R182). -/
def subMags (fmt : Fmt) (a b : Pat fmt) (sign : Bool) (rm : RoundingMode) (tm : Tininess) : FloatResult fmt :=
  let ea := expOf fmt a
  let eb := expOf fmt b
  let hidden := 2 ^ (fmt.k - 2)
  if ea = eb then
    let d : Int := (fracOf fmt a : Int) - fracOf fmt b
    if d = 0 then (zeroPat fmt (cancelSign rm), noFlags)
    else
      let e := ea - 1
      let sd := clz fmt.k d.natAbs - (fmt.k - fmt.p)
      let sd := if e < sd then e else sd
      (pack fmt (sign ^^ decide (d < 0)) ((e - sd : Nat) : Int) (d.natAbs <<< sd), noFlags)
  else if ea < eb then
    let x := shiftRightJam fmt.k (alignedFrac fmt fmt.g a) (eb - ea)
    normRoundPack fmt (!sign) ((eb : Int) - 1) (((fracOf fmt b <<< fmt.g) ||| hidden) - x) rm tm
  else
    let y := shiftRightJam fmt.k (alignedFrac fmt fmt.g b) (ea - eb)
    normRoundPack fmt sign ((ea : Int) - 1) (((fracOf fmt a <<< fmt.g) ||| hidden) - y) rm tm

/-- The adder's datapath on finite patterns: like effective signs to `addMags`, unlike ones to `subMags` (R181). -/
def addSubDatapath (fmt : Fmt) (neg : Bool) (a b : Pat fmt) (rm : RoundingMode) (tm : Tininess) : FloatResult fmt :=
  if signOf fmt a = (signOf fmt b ^^ neg) then addMags fmt a b (signOf fmt a) rm tm
  else subMags fmt a b (signOf fmt a) rm tm

/-- `f32_add` (R183). -/
def execF32Add (rm : RoundingMode) (_exact : Bool) (ops : Operands) (s : State) : Out :=
  s.finishPattern (add .f32 (patOf .f32 ops.a) (patOf .f32 ops.b) rm s.tininess)

/-- `f32_sub` (R184). -/
def execF32Sub (rm : RoundingMode) (_exact : Bool) (ops : Operands) (s : State) : Out :=
  s.finishPattern (sub .f32 (patOf .f32 ops.a) (patOf .f32 ops.b) rm s.tininess)

/-- `f64_add` (R185). -/
def execF64Add (rm : RoundingMode) (_exact : Bool) (ops : Operands) (s : State) : Out :=
  s.finishPattern (add .f64 (patOf .f64 ops.a) (patOf .f64 ops.b) rm s.tininess)

/-- `f64_sub` (R186). -/
def execF64Sub (rm : RoundingMode) (_exact : Bool) (ops : Operands) (s : State) : Out :=
  s.finishPattern (sub .f64 (patOf .f64 ops.a) (patOf .f64 ops.b) rm s.tininess)

end Sys2Proof.Machine
end

