-- ==== Sys2Proof/Machine/Classify.lean ====
section
/-! DEFINITION. Classification (48_compare_classify_roundtoint.md section 2): the kernel R238 and the two requests. -/

namespace Sys2Proof.Machine

/-- The bit of the class of a pattern (R238). -/
def classBit (fmt : Fmt) (a : Pat fmt) : Nat :=
  let s := signOf fmt a
  if expOf fmt a = fmt.expMax then
    if fracOf fmt a = 0 then (if s then 0 else 7)
    else (if isSigNaN fmt a then 8 else 9)
  else if expOf fmt a = 0 then
    if fracOf fmt a = 0 then (if s then 3 else 4)
    else (if s then 2 else 5)
  else (if s then 1 else 6)

/-- The second bit a NaN's mask has under `P_CLASSIFY_NAN_EXTRA_BIT` (R238, 00_scope.md R7). -/
def nanExtraMask (cfg : Config) (fmt : Fmt) (a : Pat fmt) : BitVec 10 :=
  match cfg.classifyNaNExtraBit with
  | none => 0
  | some i => if isNaN fmt a then BitVec.ofNat 10 (2 ^ i.val) else 0

/-- `Classify(fmt, a)`, the 10-bit mask (R238). -/
def classify (cfg : Config) (fmt : Fmt) (a : Pat fmt) : BitVec 10 :=
  BitVec.ofNat 10 (2 ^ classBit fmt a) ||| nanExtraMask cfg fmt a

/-- `f32_classify` (R239): no flag, ever. -/
def execF32Classify (_rm : RoundingMode) (_exact : Bool) (ops : Operands) (s : State) : Out :=
  s.finishPattern (classify config .f32 (patOf .f32 ops.a), noFlags)

/-- `f64_classify` (R240): no flag, ever. -/
def execF64Classify (_rm : RoundingMode) (_exact : Bool) (ops : Operands) (s : State) : Out :=
  s.finishPattern (classify config .f64 (patOf .f64 ops.a), noFlags)

end Sys2Proof.Machine
end

