-- ==== Sys2Proof/Machine/Compare.lean ====
section
/-! DEFINITION. The comparison family (48_compare_classify_roundtoint.md section 1): the kernel R225, the datapath
R249, and the twelve requests. -/

namespace Sys2Proof.Machine

/-- The six kinds of comparison (R225). -/
inductive CompareKind where
  | eq
  | le
  | lt
  | eqSignaling
  | leQuiet
  | ltQuiet
deriving DecidableEq, Repr

/-- The kinds that raise `NV` for any NaN operand (R225, 44_nan_and_flag_logic.md R155). -/
def CompareKind.signaling : CompareKind → Bool
  | .le | .lt | .eqSignaling => true
  | .eq | .leQuiet | .ltQuiet => false

/-- `Key(fmt, a)` of a pattern that is not a NaN (R225). -/
def compareKey (fmt : Fmt) (a : Pat fmt) : Int := signed (signOf fmt a) (a.toNat % 2 ^ (fmt.k - 1) : Nat)

/-- `Compare(fmt, kind, a, b)` (R225). -/
def compare (fmt : Fmt) (kind : CompareKind) (a b : Pat fmt) : Bool × FlagSet :=
  if isNaN fmt a || isNaN fmt b then
    (false, flagIf (kind.signaling || isSigNaN fmt a || isSigNaN fmt b) NV)
  else
    let x := compareKey fmt a
    let y := compareKey fmt b
    (match kind with
      | .eq | .eqSignaling => x = y
      | .le | .leQuiet => x ≤ y
      | .lt | .ltQuiet => x < y, noFlags)

/-- The comparison datapath on patterns that are not NaNs (R249). -/
def compareDatapath (fmt : Fmt) (kind : CompareKind) (a b : Pat fmt) : Bool :=
  let sa := signOf fmt a
  let sb := signOf fmt b
  let bothZero := (a ||| b) <<< 1 == 0#fmt.k
  match kind with
  | .eq | .eqSignaling => a == b || bothZero
  | .le | .leQuiet => if sa != sb then sa || bothZero else a == b || (sa ^^ decide (a < b))
  | .lt | .ltQuiet => if sa != sb then sa && !bothZero else a != b && (sa ^^ decide (a < b))

/-- `f32_eq` (R226). -/
def execF32Eq (_rm : RoundingMode) (_exact : Bool) (ops : Operands) (s : State) : Out :=
  s.finishTruth (compare .f32 .eq (patOf .f32 ops.a) (patOf .f32 ops.b))

/-- `f32_le` (R227). -/
def execF32Le (_rm : RoundingMode) (_exact : Bool) (ops : Operands) (s : State) : Out :=
  s.finishTruth (compare .f32 .le (patOf .f32 ops.a) (patOf .f32 ops.b))

/-- `f32_lt` (R228). -/
def execF32Lt (_rm : RoundingMode) (_exact : Bool) (ops : Operands) (s : State) : Out :=
  s.finishTruth (compare .f32 .lt (patOf .f32 ops.a) (patOf .f32 ops.b))

/-- `f32_eq_signaling` (R229). -/
def execF32EqSignaling (_rm : RoundingMode) (_exact : Bool) (ops : Operands) (s : State) : Out :=
  s.finishTruth (compare .f32 .eqSignaling (patOf .f32 ops.a) (patOf .f32 ops.b))

/-- `f32_le_quiet` (R230). -/
def execF32LeQuiet (_rm : RoundingMode) (_exact : Bool) (ops : Operands) (s : State) : Out :=
  s.finishTruth (compare .f32 .leQuiet (patOf .f32 ops.a) (patOf .f32 ops.b))

/-- `f32_lt_quiet` (R231). -/
def execF32LtQuiet (_rm : RoundingMode) (_exact : Bool) (ops : Operands) (s : State) : Out :=
  s.finishTruth (compare .f32 .ltQuiet (patOf .f32 ops.a) (patOf .f32 ops.b))

/-- `f64_eq` (R232). -/
def execF64Eq (_rm : RoundingMode) (_exact : Bool) (ops : Operands) (s : State) : Out :=
  s.finishTruth (compare .f64 .eq (patOf .f64 ops.a) (patOf .f64 ops.b))

/-- `f64_le` (R233). -/
def execF64Le (_rm : RoundingMode) (_exact : Bool) (ops : Operands) (s : State) : Out :=
  s.finishTruth (compare .f64 .le (patOf .f64 ops.a) (patOf .f64 ops.b))

/-- `f64_lt` (R234). -/
def execF64Lt (_rm : RoundingMode) (_exact : Bool) (ops : Operands) (s : State) : Out :=
  s.finishTruth (compare .f64 .lt (patOf .f64 ops.a) (patOf .f64 ops.b))

/-- `f64_eq_signaling` (R235). -/
def execF64EqSignaling (_rm : RoundingMode) (_exact : Bool) (ops : Operands) (s : State) : Out :=
  s.finishTruth (compare .f64 .eqSignaling (patOf .f64 ops.a) (patOf .f64 ops.b))

/-- `f64_le_quiet` (R236). -/
def execF64LeQuiet (_rm : RoundingMode) (_exact : Bool) (ops : Operands) (s : State) : Out :=
  s.finishTruth (compare .f64 .leQuiet (patOf .f64 ops.a) (patOf .f64 ops.b))

/-- `f64_lt_quiet` (R237). -/
def execF64LtQuiet (_rm : RoundingMode) (_exact : Bool) (ops : Operands) (s : State) : Out :=
  s.finishTruth (compare .f64 .ltQuiet (patOf .f64 ops.a) (patOf .f64 ops.b))

end Sys2Proof.Machine
end

