-- ==== Sys2Proof/Machine/Control.lean ====
section
/-! DEFINITION. The three control requests (44_nan_and_flag_logic.md section 4). -/

namespace Sys2Proof.Machine

/-- `ctx_init` (R170): `TININESS <- A[0]`, `FLAGS <- 0`, response `(0, 0)`. -/
def execCtxInit (_spare : BitVec 4) (ops : Operands) (s : State) : Out := (s.setContext noFlags (tininessOf ops.a)).finishControl 0

/-- `flags_reset` (R171): `FLAGS <- 0`, response `(0, 0)`. -/
def execFlagsReset (_spare : BitVec 4) (_ops : Operands) (s : State) : Out := (s.setContext noFlags s.tininess).finishControl 0

/-- `flags_read` (R172): response `(zext_64(FLAGS), 0)`, nothing written. -/
def execFlagsRead (_spare : BitVec 4) (_ops : Operands) (s : State) : Out := s.finishControl (s.flags.setWidth 64)

end Sys2Proof.Machine
end

