-- ==== Sys2Proof/Machine/Convert.lean ====
section
/-! DEFINITION. The conversions (49_convert.md): the kernels R251, R260 and R269, the datapaths of R272, and the
eighteen requests. -/

namespace Sys2Proof.Machine

/-- `NANSENT(ity)` under `P_NAN_TO_INT` (R251). -/
def nanSentinel (cfg : Config) (ity : IntFmt) : BitVec ity.width :=
  match cfg.nanToInt with
  | .maxPositive => intPat ity ity.max
  | .other s =>
    match ity with
    | .ui32 => s.ui32
    | .ui64 => s.ui64
    | .i32 => s.i32
    | .i64 => s.i64

/-- The result for a value below or above the integer format, by its sign (R251). -/
def overflowSentinel (ity : IntFmt) (sign : Bool) : IntResult ity :=
  (if sign then intPat ity ity.min else intPat ity ity.max, NV)

/-- `FloatToInt(fmt, ity, a, rm, exact)` (R251). -/
def floatToInt (cfg : Config) (fmt : Fmt) (ity : IntFmt) (a : Pat fmt) (rm : RoundingMode) (exact : Bool) :
    IntResult ity :=
  if isNaN fmt a then (nanSentinel cfg ity, NV)
  else if isInf fmt a then overflowSentinel ity (signOf fmt a)
  else if isZero fmt a then (0, noFlags)
  else
    let u := unpack fmt a
    let r := roundIntMag cfg u.sign u.m u.q rm
    saturate ity (signed u.sign r.1) r.2 exact

/-- `IntToFloat(fmt, ity, x, rm, tm)` (R260). -/
def intToFloat (fmt : Fmt) (ity : IntFmt) (x : BitVec ity.width) (rm : RoundingMode) (tm : Tininess) :
    FloatResult fmt :=
  let v := intVal ity x
  if v = 0 then (zeroPat fmt false, noFlags) else roundExact fmt (v < 0) v.natAbs false 0 rm tm

/-- `FloatToFloat(src, dst, a, rm, tm)` (R269). -/
def floatToFloat (src dst : Fmt) (a : Pat src) (rm : RoundingMode) (tm : Tininess) : FloatResult dst :=
  let s := signOf src a
  if isNaN src a then (cnan dst, flagIf (isSigNaN src a) NV)
  else if isInf src a then (infPat dst s, noFlags)
  else if isZero src a then (zeroPat dst s, noFlags)
  else
    let u := unpack src a
    roundExact dst s u.m false u.q rm tm

/-- `sig = f | (if e != 0 then 2^t else 0)` (R272). -/
def sigWithHidden (fmt : Fmt) (a : Pat fmt) : Nat := fracOf fmt a ||| (if expOf fmt a ≠ 0 then 2 ^ fmt.t else 0)

/-- Float to 32-bit integer, for every pattern: a NaN from the table of R251 first, then the fixed-point path with 12
fraction bits, in which an infinity is too large (R272). -/
def floatToInt32Datapath (cfg : Config) (fmt : Fmt) (ity : IntFmt) (a : Pat fmt) (rm : RoundingMode) (exact : Bool) :
    IntResult ity :=
  if isNaN fmt a then (nanSentinel cfg ity, NV)
  else
    let pre := match fmt with | .f32 => 32 | .f64 => 0
    let sig := sigWithHidden fmt a <<< pre
    let dist : Int := (match fmt with | .f32 => 0xAA | .f64 => 0x427) - expOf fmt a
    let sig := if 0 < dist then shiftRightJam 64 sig dist.toNat else sig
    roundToIntFmt cfg ity (signOf fmt a) sig 12 rm exact

/-- Float to 64-bit integer, for every pattern: a NaN and an exponent out of range (an infinity's among them) from the
table of R251 first, then the path with a 64-bit integer part and a 64-bit fraction word (R272). -/
def floatToInt64Datapath (cfg : Config) (fmt : Fmt) (ity : IntFmt) (a : Pat fmt) (rm : RoundingMode) (exact : Bool) :
    IntResult ity :=
  let sig := sigWithHidden fmt a
  let dist : Int := (match fmt with | .f32 => 0xBE | .f64 => 0x433) - expOf fmt a
  let least : Int := match fmt with | .f32 => 0 | .f64 => -11
  if isNaN fmt a then (nanSentinel cfg ity, NV)
  else if dist < least then overflowSentinel ity (signOf fmt a)
  else
    let v := match fmt with
      | .f32 => sig <<< 40
      | .f64 => sig <<< (-dist).toNat
    let vx := if 0 < dist then shiftRightJam64Extra v 0 dist.toNat else (v, 0)
    roundToIntFmt cfg ity (signOf fmt a) (vx.1 * 2 ^ 64 + vx.2) 64 rm exact

/-- Integer to float, for a nonzero integer (R272). -/
def intToFloatDatapath (fmt : Fmt) (s : Bool) (m : Nat) (rm : RoundingMode) (tm : Tininess) : FloatResult fmt :=
  let e : Int := fmt.bias + fmt.k - 3
  if bitlen m ≤ fmt.k - 1 then normRoundPack fmt s e m rm tm
  else
    let d := bitlen m - (fmt.k - 1)
    roundPack fmt s (e + d) (shiftRightJam 64 m d) rm tm

/-- F64 to F32, for finite operands (R272). -/
def narrowDatapath (a : Pat .f64) (rm : RoundingMode) (tm : Tininess) : FloatResult .f32 :=
  let s := signOf .f64 a
  let f := shiftRightJam 64 (fracOf .f64 a) 22
  if expOf .f64 a = 0 ∧ f = 0 then (zeroPat .f32 s, noFlags)
  else roundPack .f32 s ((expOf .f64 a : Int) - 0x381) (f ||| 0x40000000) rm tm

/-- F32 to F64, for finite nonzero operands (R272). -/
def widenDatapath (a : Pat .f32) : Option (Pat .f64) := do
  let (e, f) ← if expOf .f32 a = 0 then (normSubnormalSig .f32 (fracOf .f32 a)).map fun r => (r.1 - 1, r.2)
    else some ((expOf .f32 a : Int), fracOf .f32 a)
  some (pack .f64 (signOf .f32 a) (e + 0x380) (f <<< 29))

/-- `f32_to_ui32` (R252). -/
def execF32ToUi32 (rm : RoundingMode) (exact : Bool) (ops : Operands) (s : State) : Out :=
  s.finishPattern (floatToInt config .f32 .ui32 (patOf .f32 ops.a) rm exact)

/-- `f32_to_ui64` (R253). -/
def execF32ToUi64 (rm : RoundingMode) (exact : Bool) (ops : Operands) (s : State) : Out :=
  s.finishPattern (floatToInt config .f32 .ui64 (patOf .f32 ops.a) rm exact)

/-- `f32_to_i32` (R254). -/
def execF32ToI32 (rm : RoundingMode) (exact : Bool) (ops : Operands) (s : State) : Out :=
  s.finishPattern (floatToInt config .f32 .i32 (patOf .f32 ops.a) rm exact)

/-- `f32_to_i64` (R255). -/
def execF32ToI64 (rm : RoundingMode) (exact : Bool) (ops : Operands) (s : State) : Out :=
  s.finishPattern (floatToInt config .f32 .i64 (patOf .f32 ops.a) rm exact)

/-- `f64_to_ui32` (R256). -/
def execF64ToUi32 (rm : RoundingMode) (exact : Bool) (ops : Operands) (s : State) : Out :=
  s.finishPattern (floatToInt config .f64 .ui32 (patOf .f64 ops.a) rm exact)

/-- `f64_to_ui64` (R257). -/
def execF64ToUi64 (rm : RoundingMode) (exact : Bool) (ops : Operands) (s : State) : Out :=
  s.finishPattern (floatToInt config .f64 .ui64 (patOf .f64 ops.a) rm exact)

/-- `f64_to_i32` (R258). -/
def execF64ToI32 (rm : RoundingMode) (exact : Bool) (ops : Operands) (s : State) : Out :=
  s.finishPattern (floatToInt config .f64 .i32 (patOf .f64 ops.a) rm exact)

/-- `f64_to_i64` (R259). -/
def execF64ToI64 (rm : RoundingMode) (exact : Bool) (ops : Operands) (s : State) : Out :=
  s.finishPattern (floatToInt config .f64 .i64 (patOf .f64 ops.a) rm exact)

/-- `ui32_to_f32` (R261). -/
def execUi32ToF32 (rm : RoundingMode) (_exact : Bool) (ops : Operands) (s : State) : Out :=
  s.finishPattern (intToFloat .f32 .ui32 (intOf .ui32 ops.a) rm s.tininess)

/-- `ui64_to_f32` (R262). -/
def execUi64ToF32 (rm : RoundingMode) (_exact : Bool) (ops : Operands) (s : State) : Out :=
  s.finishPattern (intToFloat .f32 .ui64 (intOf .ui64 ops.a) rm s.tininess)

/-- `i32_to_f32` (R263). -/
def execI32ToF32 (rm : RoundingMode) (_exact : Bool) (ops : Operands) (s : State) : Out :=
  s.finishPattern (intToFloat .f32 .i32 (intOf .i32 ops.a) rm s.tininess)

/-- `i64_to_f32` (R264). -/
def execI64ToF32 (rm : RoundingMode) (_exact : Bool) (ops : Operands) (s : State) : Out :=
  s.finishPattern (intToFloat .f32 .i64 (intOf .i64 ops.a) rm s.tininess)

/-- `ui32_to_f64` (R265). -/
def execUi32ToF64 (rm : RoundingMode) (_exact : Bool) (ops : Operands) (s : State) : Out :=
  s.finishPattern (intToFloat .f64 .ui32 (intOf .ui32 ops.a) rm s.tininess)

/-- `ui64_to_f64` (R266). -/
def execUi64ToF64 (rm : RoundingMode) (_exact : Bool) (ops : Operands) (s : State) : Out :=
  s.finishPattern (intToFloat .f64 .ui64 (intOf .ui64 ops.a) rm s.tininess)

/-- `i32_to_f64` (R267). -/
def execI32ToF64 (rm : RoundingMode) (_exact : Bool) (ops : Operands) (s : State) : Out :=
  s.finishPattern (intToFloat .f64 .i32 (intOf .i32 ops.a) rm s.tininess)

/-- `i64_to_f64` (R268). -/
def execI64ToF64 (rm : RoundingMode) (_exact : Bool) (ops : Operands) (s : State) : Out :=
  s.finishPattern (intToFloat .f64 .i64 (intOf .i64 ops.a) rm s.tininess)

/-- `f32_to_f64` (R270). -/
def execF32ToF64 (rm : RoundingMode) (_exact : Bool) (ops : Operands) (s : State) : Out :=
  s.finishPattern (floatToFloat .f32 .f64 (patOf .f32 ops.a) rm s.tininess)

/-- `f64_to_f32` (R271). -/
def execF64ToF32 (rm : RoundingMode) (_exact : Bool) (ops : Operands) (s : State) : Out :=
  s.finishPattern (floatToFloat .f64 .f32 (patOf .f64 ops.a) rm s.tininess)

end Sys2Proof.Machine
end

