-- ==== Sys2Proof/Machine/DivSqrt.lean ====
section
/-! DEFINITION. The sub-blocks fp_divider and fp_sqrt_unit (47_div_rem_sqrt.md): the value-level kernels R205, R210
and R215, the datapaths R206 and R216, and the six requests. The reciprocal tables are not observable
(41_sticky_shifter.md R108; log entry 7). -/

namespace Sys2Proof.Machine

/-- `Div(fmt, a, b, rm, tm)` (R205). -/
def div (fmt : Fmt) (a b : Pat fmt) (rm : RoundingMode) (tm : Tininess) : FloatResult fmt :=
  let s := signOf fmt a ^^ signOf fmt b
  if isNaN fmt a || isNaN fmt b then nanResult fmt [a, b]
  else if isInf fmt a then
    if isInf fmt b then invalidResult fmt else (infPat fmt s, noFlags)
  else if isInf fmt b then (zeroPat fmt s, noFlags)
  else if isZero fmt b then
    if isZero fmt a then invalidResult fmt else (infPat fmt s, DZ)
  else if isZero fmt a then (zeroPat fmt s, noFlags)
  else
    let ua := unpack fmt a
    let ub := unpack fmt b
    let n := ua.m * 2 ^ 128
    roundExact fmt s (n / ub.m) (n % ub.m != 0) (ua.q - ub.q - 128) rm tm

/-- `Rem(fmt, a, b)`, the IEEE remainder (R210). -/
def rem (fmt : Fmt) (a b : Pat fmt) : FloatResult fmt :=
  if isNaN fmt a || isNaN fmt b then nanResult fmt [a, b]
  else if isInf fmt a || isZero fmt b then invalidResult fmt
  else if isInf fmt b || isZero fmt a then (a, noFlags)
  else
    let ua := unpack fmt a
    let ub := unpack fmt b
    let q := min ua.q ub.q
    let x := ua.m * 2 ^ (ua.q - q).toNat
    let y := ub.m * 2 ^ (ub.q - q).toNat
    let n := x / y
    let r₀ := x % y
    let r : Int := if y < 2 * r₀ ∨ (2 * r₀ = y ∧ n % 2 = 1) then (r₀ : Int) - y else r₀
    if r = 0 then (zeroPat fmt ua.sign, noFlags)
    else (packExact fmt (ua.sign ^^ decide (r < 0)) r.natAbs q, noFlags)

/-- `Sqrt(fmt, a, rm, tm)` (R215). -/
def sqrt (fmt : Fmt) (a : Pat fmt) (rm : RoundingMode) (tm : Tininess) : FloatResult fmt :=
  if isNaN fmt a then nanResult fmt [a]
  else if isZero fmt a then (a, noFlags)
  else if signOf fmt a then invalidResult fmt
  else if isInf fmt a then (a, noFlags)
  else
    let ua := unpack fmt a
    let m := if ua.q % 2 = 1 then 2 * ua.m else ua.m
    let q := if ua.q % 2 = 1 then ua.q - 1 else ua.q
    let big := m * 2 ^ 128
    let r := isqrt big
    roundExact fmt false r (r * r != big) (q / 2 - 64) rm tm

/-- The divider's datapath, for finite nonzero operands (R206). -/
def divDatapath (fmt : Fmt) (a b : Pat fmt) (rm : RoundingMode) (tm : Tininess) : Option (FloatResult fmt) := do
  let s := signOf fmt a ^^ signOf fmt b
  let (ea, xa) ← normOperand fmt a
  let (eb, xb) ← normOperand fmt b
  let ez₀ := ea - eb + fmt.bias - 1
  let ez := if xa < xb then ez₀ - 1 else ez₀
  let n := if xa < xb then xa <<< (fmt.k - 1) else xa <<< (fmt.k - 2)
  some (roundPack fmt s ez (n / xb ||| jamBit (n % xb != 0)) rm tm)

/-- The square-root unit's datapath, for a positive finite operand (R216). -/
def sqrtDatapath (fmt : Fmt) (a : Pat fmt) (rm : RoundingMode) (tm : Tininess) : Option (FloatResult fmt) := do
  let (ea, fa) ← normOperand fmt a
  let d := ea - fmt.bias
  let m := fa <<< (d % 2).toNat
  let big := m <<< (2 * (fmt.k - 2) - fmt.t)
  let r := isqrt big
  some (roundPack fmt false (d / 2 + fmt.bias - 1) (r ||| jamBit (r * r != big)) rm tm)

/-- `f32_div` (R207). -/
def execF32Div (rm : RoundingMode) (_exact : Bool) (ops : Operands) (s : State) : Out :=
  s.finishPattern (div .f32 (patOf .f32 ops.a) (patOf .f32 ops.b) rm s.tininess)

/-- `f64_div` (R208). -/
def execF64Div (rm : RoundingMode) (_exact : Bool) (ops : Operands) (s : State) : Out :=
  s.finishPattern (div .f64 (patOf .f64 ops.a) (patOf .f64 ops.b) rm s.tininess)

/-- `f32_rem` (R211). -/
def execF32Rem (_rm : RoundingMode) (_exact : Bool) (ops : Operands) (s : State) : Out :=
  s.finishPattern (rem .f32 (patOf .f32 ops.a) (patOf .f32 ops.b))

/-- `f64_rem` (R212). -/
def execF64Rem (_rm : RoundingMode) (_exact : Bool) (ops : Operands) (s : State) : Out :=
  s.finishPattern (rem .f64 (patOf .f64 ops.a) (patOf .f64 ops.b))

/-- `f32_sqrt` (R217). -/
def execF32Sqrt (rm : RoundingMode) (_exact : Bool) (ops : Operands) (s : State) : Out :=
  s.finishPattern (sqrt .f32 (patOf .f32 ops.a) rm s.tininess)

/-- `f64_sqrt` (R218). -/
def execF64Sqrt (rm : RoundingMode) (_exact : Bool) (ops : Operands) (s : State) : Out :=
  s.finishPattern (sqrt .f64 (patOf .f64 ops.a) rm s.tininess)

end Sys2Proof.Machine
end

