-- ==== Sys2Proof/Machine/MulFma.lean ====
section
/-! DEFINITION. The sub-blocks fp_multiplier and fp_fma_core (46_mul_fma.md): the value-level kernels R190 and R195,
the datapaths R191 and R196, and the four requests. -/

namespace Sys2Proof.Machine

/-- `Mul(fmt, a, b, rm, tm)` (R190). -/
def mul (fmt : Fmt) (a b : Pat fmt) (rm : RoundingMode) (tm : Tininess) : FloatResult fmt :=
  let s := signOf fmt a ^^ signOf fmt b
  if isNaN fmt a || isNaN fmt b then nanResult fmt [a, b]
  else if isInf fmt a || isInf fmt b then
    if isZero fmt a || isZero fmt b then invalidResult fmt else (infPat fmt s, noFlags)
  else if isZero fmt a || isZero fmt b then (zeroPat fmt s, noFlags)
  else
    let ua := unpack fmt a
    let ub := unpack fmt b
    roundExact fmt s (ua.m * ub.m) false (ua.q + ub.q) rm tm

/-- Whether two operands are a zero and an infinity, in either order (R152, R195). -/
def zeroTimesInf (fmt : Fmt) (a b : Pat fmt) : Bool :=
  (isInf fmt a && isZero fmt b) || (isZero fmt a && isInf fmt b)

/-- `MulAdd(fmt, a, b, c, rm, tm)` (R195): `a*b + c` with a single rounding. -/
def mulAdd (cfg : Config) (fmt : Fmt) (a b c : Pat fmt) (rm : RoundingMode) (tm : Tininess) : FloatResult fmt :=
  let sp := signOf fmt a ^^ signOf fmt b
  let sc := signOf fmt c
  if isNaN fmt a || isNaN fmt b || isNaN fmt c then
    let r := nanResult fmt [a, b, c]
    (r.1, r.2 ||| flagIf (zeroTimesInf fmt a b && cfg.fmaInvalidZeroInfQNaN) NV)
  else if zeroTimesInf fmt a b then invalidResult fmt
  else if isInf fmt a || isInf fmt b then
    if isInf fmt c && sc != sp then invalidResult fmt else (infPat fmt sp, noFlags)
  else if isInf fmt c then (c, noFlags)
  else if isZero fmt a || isZero fmt b then
    if isZero fmt c && sc != sp then (zeroPat fmt (cancelSign rm), noFlags) else (c, noFlags)
  else
    let ua := unpack fmt a
    let ub := unpack fmt b
    let uc := unpack fmt c
    let qp := ua.q + ub.q
    let mc := if isZero fmt c then 0 else uc.m
    let qc := if isZero fmt c then qp else uc.q
    let q := min qp qc
    let v := signed sp (ua.m * ub.m * 2 ^ (qp - q).toNat) + signed sc (mc * 2 ^ (qc - q).toNat)
    if v = 0 then (zeroPat fmt (cancelSign rm), noFlags)
    else roundExact fmt (v < 0) v.natAbs false q rm tm

/-- The multiplier's datapath, for finite nonzero operands (R191). -/
def mulDatapath (fmt : Fmt) (a b : Pat fmt) (rm : RoundingMode) (tm : Tininess) : Option (FloatResult fmt) := do
  let s := signOf fmt a ^^ signOf fmt b
  let (ea, fa) ← normOperand fmt a
  let (eb, fb) ← normOperand fmt b
  let ez := ea + eb - fmt.bias
  let prod := (fa <<< fmt.g) * (fb <<< (fmt.g + 1))
  let sz := shiftRightJam (2 * fmt.k) prod fmt.k
  if sz < 2 ^ (fmt.k - 2) then some (roundPack fmt s (ez - 1) (sz <<< 1) rm tm)
  else some (roundPack fmt s ez sz rm tm)

/-- The last lines of R196's subtracting branch: a `2k`-bit magnitude, normalised and rounded. -/
def fmaNormalize (fmt : Fmt) (sign : Bool) (ez : Int) (mag : Nat) (rm : RoundingMode) (tm : Tininess) :
    FloatResult fmt :=
  let sd : Int := (clz (2 * fmt.k) mag : Int) - 1
  let shift := sd - fmt.k
  let sz := if shift < 0 then shiftRightJam (2 * fmt.k) mag (-shift).toNat else mag <<< shift.toNat
  roundPack fmt sign (ez - sd) sz rm tm

/-- The fused multiply-add datapath, for finite nonzero `a`, `b` and finite `c` (R196). -/
def mulAddDatapath (fmt : Fmt) (a b c : Pat fmt) (rm : RoundingMode) (tm : Tininess) :
    Option (FloatResult fmt) := do
  let n := 2 * fmt.k
  let sp := signOf fmt a ^^ signOf fmt b
  let sc := signOf fmt c
  let (ea, fa) ← normOperand fmt a
  let (eb, fb) ← normOperand fmt b
  let ep₀ := ea + eb - (fmt.bias - 1)
  let p₀ := (fa <<< fmt.g) * (fb <<< fmt.g)
  let ep := if p₀ < 2 ^ (n - 3) then ep₀ - 1 else ep₀
  let p := if p₀ < 2 ^ (n - 3) then p₀ <<< 1 else p₀
  if isZero fmt c then some (roundPack fmt sp (ep - 1) (shiftRightJam n p (fmt.k - 1)) rm tm)
  else
    let (ec, fc) ← normOperand fmt c
    let xc := fc <<< (fmt.g - 1)
    let d := ep - ec
    if sp = sc then
      let ez := if d ≤ 0 then ec else ep
      let sz := if d ≤ 0 then xc + shiftRightJam n p (fmt.k - d).toNat
        else shiftRightJam n (p + shiftRightJam n (xc <<< fmt.k) d.toNat) fmt.k
      if sz < 2 ^ (fmt.k - 2) then some (roundPack fmt sp (ez - 1) (sz <<< 1) rm tm)
      else some (roundPack fmt sp ez sz rm tm)
    else
      let cw := xc <<< fmt.k
      if d < 0 then some (fmaNormalize fmt sc ec (cw - shiftRightJam n p (-d).toNat) rm tm)
      else if d = 0 then
        if p = cw then some (zeroPat fmt (cancelSign rm), noFlags)
        else if p < cw then some (fmaNormalize fmt (!sp) ep (cw - p) rm tm)
        else some (fmaNormalize fmt sp ep (p - cw) rm tm)
      else some (fmaNormalize fmt sp ep (p - shiftRightJam n cw d.toNat) rm tm)

/-- `f32_mul` (R192). -/
def execF32Mul (rm : RoundingMode) (_exact : Bool) (ops : Operands) (s : State) : Out :=
  s.finishPattern (mul .f32 (patOf .f32 ops.a) (patOf .f32 ops.b) rm s.tininess)

/-- `f64_mul` (R193). -/
def execF64Mul (rm : RoundingMode) (_exact : Bool) (ops : Operands) (s : State) : Out :=
  s.finishPattern (mul .f64 (patOf .f64 ops.a) (patOf .f64 ops.b) rm s.tininess)

/-- `f32_mulAdd` (R197). -/
def execF32MulAdd (rm : RoundingMode) (_exact : Bool) (ops : Operands) (s : State) : Out :=
  s.finishPattern (mulAdd config .f32 (patOf .f32 ops.a) (patOf .f32 ops.b) (patOf .f32 ops.c) rm s.tininess)

/-- `f64_mulAdd` (R198). -/
def execF64MulAdd (rm : RoundingMode) (_exact : Bool) (ops : Operands) (s : State) : Out :=
  s.finishPattern (mulAdd config .f64 (patOf .f64 ops.a) (patOf .f64 ops.b) (patOf .f64 ops.c) rm s.tininess)

end Sys2Proof.Machine
end

