-- ==== Sys2Proof/Machine/RoundToInt.lean ====
section
/-! DEFINITION. Round to integer (48_compare_classify_roundtoint.md section 3): the kernel R241, the datapath R242,
and the two requests. -/

namespace Sys2Proof.Machine

/-- `RoundToInt(fmt, a, rm, exact)` (R241). -/
def roundToInt (cfg : Config) (fmt : Fmt) (a : Pat fmt) (rm : RoundingMode) (exact : Bool) : FloatResult fmt :=
  if isNaN fmt a then nanResult fmt [a]
  else if isInf fmt a || isZero fmt a then (a, noFlags)
  else
    let u := unpack fmt a
    let r := roundIntMag cfg u.sign u.m u.q rm
    let fl := flagIf (r.2 && exact) NX
    if r.1 = 0 then (zeroPat fmt u.sign, fl) else (packExact fmt u.sign r.1 0, fl)

/-- The datapath's mode: `ODD` is replaced by `RTZ` (R242). -/
def datapathIntMode (rm : RoundingMode) : RoundingMode := if rm = .odd then .rtz else rm

/-- The round-to-integer datapath for a magnitude below 1 (R242, first branch). -/
def roundToIntSmall (fmt : Fmt) (a : Pat fmt) (rm : RoundingMode) (exact : Bool) : FloatResult fmt :=
  let e := expOf fmt a
  let one := pack fmt false fmt.bias 0
  let z := a &&& BitVec.ofNat fmt.k (2 ^ (fmt.k - 1))
  let z :=
    match datapathIntMode rm with
    | .rne => if fracOf fmt a ≠ 0 ∧ e = fmt.bias - 1 then z ||| one else z
    | .rmm => if e = fmt.bias - 1 then z ||| one else z
    | .rdn => if z ≠ 0 then pack fmt true fmt.bias 0 else z
    | .rup => if z = 0 then one else z
    | .rtz | .odd => z
  if a <<< 1 = 0 then (a, noFlags) else (z, flagIf exact NX)

/-- The round-to-integer datapath (R242), with `ODD` as `RTZ`. -/
def roundToIntDatapath (fmt : Fmt) (a : Pat fmt) (rm : RoundingMode) (exact : Bool) : FloatResult fmt :=
  let e := expOf fmt a
  if e ≤ fmt.bias - 1 then roundToIntSmall fmt a rm exact
  else if fmt.bias + fmt.p - 1 ≤ e then
    if isNaN fmt a then nanResult fmt [a] else (a, noFlags)
  else
    let last := BitVec.ofNat fmt.k (2 ^ (fmt.bias + fmt.p - 1 - e))
    let rmask := last - 1
    let z :=
      match datapathIntMode rm with
      | .rmm => a + last >>> 1
      | .rne =>
        let z := a + last >>> 1
        if z &&& rmask = 0 then z &&& ~~~last else z
      | .rdn => if signOf fmt a then a + rmask else a
      | .rup => if signOf fmt a then a else a + rmask
      | .rtz | .odd => a
    let z := z &&& ~~~rmask
    (z, flagIf (z != a && exact) NX)

/-- `f32_roundToInt` (R243). -/
def execF32RoundToInt (rm : RoundingMode) (exact : Bool) (ops : Operands) (s : State) : Out :=
  s.finishPattern (roundToInt config .f32 (patOf .f32 ops.a) rm exact)

/-- `f64_roundToInt` (R244). -/
def execF64RoundToInt (rm : RoundingMode) (exact : Bool) (ops : Operands) (s : State) : Out :=
  s.finishPattern (roundToInt config .f64 (patOf .f64 ops.a) rm exact)

end Sys2Proof.Machine
end

