-- ==== Sys2Proof/Machine/Dispatch.lean ====
section
/-! DEFINITION. One arm per instruction of spec/opcode_table.json, each a direct call of its meaning
(44_nan_and_flag_logic.md R167, R170 to R172).
Every field is handed on; a meaning ignores the fields its request does not use (30_encoding.md R57, R58, R62). -/

namespace Sys2Proof.Machine

def exec (i : Instr) (s : State) : Host.Outcome State Fault Refusal :=
  match i with
  | .f32_add rm exact ops => Sys2Proof.Machine.execF32Add rm exact ops s
  | .f32_sub rm exact ops => Sys2Proof.Machine.execF32Sub rm exact ops s
  | .f32_mul rm exact ops => Sys2Proof.Machine.execF32Mul rm exact ops s
  | .f32_div rm exact ops => Sys2Proof.Machine.execF32Div rm exact ops s
  | .f32_rem rm exact ops => Sys2Proof.Machine.execF32Rem rm exact ops s
  | .f32_sqrt rm exact ops => Sys2Proof.Machine.execF32Sqrt rm exact ops s
  | .f32_mulAdd rm exact ops => Sys2Proof.Machine.execF32MulAdd rm exact ops s
  | .f32_roundToInt rm exact ops => Sys2Proof.Machine.execF32RoundToInt rm exact ops s
  | .f32_eq rm exact ops => Sys2Proof.Machine.execF32Eq rm exact ops s
  | .f32_le rm exact ops => Sys2Proof.Machine.execF32Le rm exact ops s
  | .f32_lt rm exact ops => Sys2Proof.Machine.execF32Lt rm exact ops s
  | .f32_eq_signaling rm exact ops => Sys2Proof.Machine.execF32EqSignaling rm exact ops s
  | .f32_le_quiet rm exact ops => Sys2Proof.Machine.execF32LeQuiet rm exact ops s
  | .f32_lt_quiet rm exact ops => Sys2Proof.Machine.execF32LtQuiet rm exact ops s
  | .f32_classify rm exact ops => Sys2Proof.Machine.execF32Classify rm exact ops s
  | .f32_to_ui32 rm exact ops => Sys2Proof.Machine.execF32ToUi32 rm exact ops s
  | .f32_to_ui64 rm exact ops => Sys2Proof.Machine.execF32ToUi64 rm exact ops s
  | .f32_to_i32 rm exact ops => Sys2Proof.Machine.execF32ToI32 rm exact ops s
  | .f32_to_i64 rm exact ops => Sys2Proof.Machine.execF32ToI64 rm exact ops s
  | .ui32_to_f32 rm exact ops => Sys2Proof.Machine.execUi32ToF32 rm exact ops s
  | .ui64_to_f32 rm exact ops => Sys2Proof.Machine.execUi64ToF32 rm exact ops s
  | .i32_to_f32 rm exact ops => Sys2Proof.Machine.execI32ToF32 rm exact ops s
  | .i64_to_f32 rm exact ops => Sys2Proof.Machine.execI64ToF32 rm exact ops s
  | .f32_to_f64 rm exact ops => Sys2Proof.Machine.execF32ToF64 rm exact ops s
  | .ctx_init spare ops => Sys2Proof.Machine.execCtxInit spare ops s
  | .flags_reset spare ops => Sys2Proof.Machine.execFlagsReset spare ops s
  | .flags_read spare ops => Sys2Proof.Machine.execFlagsRead spare ops s
  | .f64_add rm exact ops => Sys2Proof.Machine.execF64Add rm exact ops s
  | .f64_sub rm exact ops => Sys2Proof.Machine.execF64Sub rm exact ops s
  | .f64_mul rm exact ops => Sys2Proof.Machine.execF64Mul rm exact ops s
  | .f64_div rm exact ops => Sys2Proof.Machine.execF64Div rm exact ops s
  | .f64_rem rm exact ops => Sys2Proof.Machine.execF64Rem rm exact ops s
  | .f64_sqrt rm exact ops => Sys2Proof.Machine.execF64Sqrt rm exact ops s
  | .f64_mulAdd rm exact ops => Sys2Proof.Machine.execF64MulAdd rm exact ops s
  | .f64_roundToInt rm exact ops => Sys2Proof.Machine.execF64RoundToInt rm exact ops s
  | .f64_eq rm exact ops => Sys2Proof.Machine.execF64Eq rm exact ops s
  | .f64_le rm exact ops => Sys2Proof.Machine.execF64Le rm exact ops s
  | .f64_lt rm exact ops => Sys2Proof.Machine.execF64Lt rm exact ops s
  | .f64_eq_signaling rm exact ops => Sys2Proof.Machine.execF64EqSignaling rm exact ops s
  | .f64_le_quiet rm exact ops => Sys2Proof.Machine.execF64LeQuiet rm exact ops s
  | .f64_lt_quiet rm exact ops => Sys2Proof.Machine.execF64LtQuiet rm exact ops s
  | .f64_classify rm exact ops => Sys2Proof.Machine.execF64Classify rm exact ops s
  | .f64_to_ui32 rm exact ops => Sys2Proof.Machine.execF64ToUi32 rm exact ops s
  | .f64_to_ui64 rm exact ops => Sys2Proof.Machine.execF64ToUi64 rm exact ops s
  | .f64_to_i32 rm exact ops => Sys2Proof.Machine.execF64ToI32 rm exact ops s
  | .f64_to_i64 rm exact ops => Sys2Proof.Machine.execF64ToI64 rm exact ops s
  | .ui32_to_f64 rm exact ops => Sys2Proof.Machine.execUi32ToF64 rm exact ops s
  | .ui64_to_f64 rm exact ops => Sys2Proof.Machine.execUi64ToF64 rm exact ops s
  | .i32_to_f64 rm exact ops => Sys2Proof.Machine.execI32ToF64 rm exact ops s
  | .i64_to_f64 rm exact ops => Sys2Proof.Machine.execI64ToF64 rm exact ops s
  | .f64_to_f32 rm exact ops => Sys2Proof.Machine.execF64ToF32 rm exact ops s

end Sys2Proof.Machine
end

