-- ==== Sys2Proof/Machine/Step.lean ====
section
/-! DEFINITION. One step of the unit: the host's oldest input is taken, whole (00_scope.md R9, 20_memory.md R47,
70_reset_and_hazards.md R301, R303). -/

namespace Sys2Proof.Machine

/-- A well-formed request runs; an ill-formed one is refused (30_encoding.md R63); an assertion of reset resets; with
no input the unit stands idle. -/
def step (s : State) : Host.Outcome State Fault Refusal :=
  match s.inputs with
  | [] => s.idle
  | .reset :: rest => .next (State.afterReset rest)
  | .request r :: rest =>
    match decode r with
    | .ok i => exec i (s.taking rest)
    | .error why => .refused (.illFormed why)

/-- `s` with the request whose `nbits` given bits are `w` (the bits above them 0) as its oldest input, so that the
next step runs it (log entry 4). -/
def State.withFetchWord (s : State) (nbits w : Nat) : State :=
  { s with inputs := .request (Request.ofBits (w % 2 ^ nbits)) :: s.inputs }

end Sys2Proof.Machine
end

