-- ==== Sys2Proof/Machine/Assembler.lean ====
section
/-! DEFINITION. The assembler syntax the spec writes programs in (30_encoding.md R65): one line of text to the request
it encodes. It is no part of the machine; nothing in `step` depends on it. -/

namespace Sys2Proof.Machine

/-- A kernel mnemonic with its operation code, the number of its operands and their width (30_encoding.md R58). -/
structure AsmRow where
  name : String
  code : BitVec 6
  arity : Nat
  width : Nat
deriving DecidableEq, Repr

/-- The rows under format F32, arithmetic and comparison. -/
def asmRowsF32 : List AsmRow :=
  [⟨"f32_add", 0x00#6, 2, 32⟩,
   ⟨"f32_sub", 0x01#6, 2, 32⟩,
   ⟨"f32_mul", 0x02#6, 2, 32⟩,
   ⟨"f32_div", 0x03#6, 2, 32⟩,
   ⟨"f32_rem", 0x04#6, 2, 32⟩,
   ⟨"f32_sqrt", 0x05#6, 1, 32⟩,
   ⟨"f32_mulAdd", 0x06#6, 3, 32⟩,
   ⟨"f32_roundToInt", 0x07#6, 1, 32⟩,
   ⟨"f32_eq", 0x08#6, 2, 32⟩,
   ⟨"f32_le", 0x09#6, 2, 32⟩,
   ⟨"f32_lt", 0x0A#6, 2, 32⟩,
   ⟨"f32_eq_signaling", 0x0B#6, 2, 32⟩,
   ⟨"f32_le_quiet", 0x0C#6, 2, 32⟩,
   ⟨"f32_lt_quiet", 0x0D#6, 2, 32⟩,
   ⟨"f32_classify", 0x0E#6, 1, 32⟩]

/-- The conversions under format F32. -/
def asmConversionsF32 : List AsmRow :=
  [⟨"f32_to_ui32", 0x10#6, 1, 32⟩,
   ⟨"f32_to_ui64", 0x11#6, 1, 32⟩,
   ⟨"f32_to_i32", 0x12#6, 1, 32⟩,
   ⟨"f32_to_i64", 0x13#6, 1, 32⟩,
   ⟨"ui32_to_f32", 0x14#6, 1, 32⟩,
   ⟨"ui64_to_f32", 0x15#6, 1, 64⟩,
   ⟨"i32_to_f32", 0x16#6, 1, 32⟩,
   ⟨"i64_to_f32", 0x17#6, 1, 64⟩,
   ⟨"f32_to_f64", 0x18#6, 1, 32⟩]

/-- The rows under format F64, arithmetic and comparison. -/
def asmRowsF64 : List AsmRow :=
  [⟨"f64_add", 0x20#6, 2, 64⟩,
   ⟨"f64_sub", 0x21#6, 2, 64⟩,
   ⟨"f64_mul", 0x22#6, 2, 64⟩,
   ⟨"f64_div", 0x23#6, 2, 64⟩,
   ⟨"f64_rem", 0x24#6, 2, 64⟩,
   ⟨"f64_sqrt", 0x25#6, 1, 64⟩,
   ⟨"f64_mulAdd", 0x26#6, 3, 64⟩,
   ⟨"f64_roundToInt", 0x27#6, 1, 64⟩,
   ⟨"f64_eq", 0x28#6, 2, 64⟩,
   ⟨"f64_le", 0x29#6, 2, 64⟩,
   ⟨"f64_lt", 0x2A#6, 2, 64⟩,
   ⟨"f64_eq_signaling", 0x2B#6, 2, 64⟩,
   ⟨"f64_le_quiet", 0x2C#6, 2, 64⟩,
   ⟨"f64_lt_quiet", 0x2D#6, 2, 64⟩,
   ⟨"f64_classify", 0x2E#6, 1, 64⟩]

/-- The conversions under format F64. -/
def asmConversionsF64 : List AsmRow :=
  [⟨"f64_to_ui32", 0x30#6, 1, 64⟩,
   ⟨"f64_to_ui64", 0x31#6, 1, 64⟩,
   ⟨"f64_to_i32", 0x32#6, 1, 64⟩,
   ⟨"f64_to_i64", 0x33#6, 1, 64⟩,
   ⟨"ui32_to_f64", 0x34#6, 1, 32⟩,
   ⟨"ui64_to_f64", 0x35#6, 1, 64⟩,
   ⟨"i32_to_f64", 0x36#6, 1, 32⟩,
   ⟨"i64_to_f64", 0x37#6, 1, 64⟩,
   ⟨"f64_to_f32", 0x38#6, 1, 64⟩]

/-- The 48 kernel mnemonics. -/
def asmRows : List AsmRow := asmRowsF32 ++ asmConversionsF32 ++ asmRowsF64 ++ asmConversionsF64

/-- `rmname` (R65, the harness names of R60). -/
def rmOfName (name : String) : Option RoundingMode :=
  if name = "near_even" then some .rne
  else if name = "minMag" then some .rtz
  else if name = "min" then some .rdn
  else if name = "max" then some .rup
  else if name = "near_maxMag" then some .rmm
  else if name = "odd" then some .odd
  else none

/-- The hexadecimal digits in the order of their values, 0 to 15. -/
def hexDigits : List Char := "0123456789ABCDEF".toList

/-- The value of a hexadecimal digit, in either case (log entry 10): its place among the digits. -/
def hexDigit (c : Char) : Option Nat := hexDigits.idxOf? c.toUpper

/-- The number a hexadecimal numeral stands for, most-significant digit first (20_memory.md R42): each digit weighs 16
to the number of digits after it. -/
def hexValue : List Char → Option Nat
  | [] => some 0
  | c :: rest => do
    let value ← hexDigit c
    let low ← hexValue rest
    some (value <<< (4 * rest.length) ||| low)

/-- `operand`: 8 digits for a 32-bit operand, 16 for a 64-bit one. -/
def parseOperand (width : Nat) (digits : List Char) : Option Word :=
  if digits.length * 4 = width then (hexValue digits).map (BitVec.ofNat 64) else none

/-- The modifiers after a kernel mnemonic: a rounding-mode name or none, then `exact` or nothing. -/
def parseModifiers : List String → Option (Option RoundingMode × Bool)
  | [] => some (none, false)
  | [m] => if m = "exact" then some (none, true) else (rmOfName m).map fun rm => (some rm, false)
  | [m, e] => if e = "exact" then (rmOfName m).map fun rm => (some rm, true) else none
  | _ => none

/-- `kernel`: the head of the line split at its points, and the operands. -/
def parseKernel (head : List String) (operands : List (List Char)) : Option AsmLine :=
  match head with
  | [] => none
  | mnemonic :: modifiers => do
    let row ← asmRows.find? (·.name = mnemonic)
    let (rm, exact) ← parseModifiers modifiers
    let values ← operands.mapM (parseOperand row.width)
    if values.length = row.arity then some (.kernel row.code rm exact values) else none

/-- `line`: its tokens are separated by spaces (log entry 10). -/
def parseTokens (tokens : List (List Char)) : Option AsmLine :=
  match tokens with
  | [] => none
  | head :: operands =>
    let name := String.ofList head
    if name = "ctx_init" then
      match operands.map String.ofList with
      | ["before"] => some (.ctxInit false)
      | ["after"] => some (.ctxInit true)
      | _ => none
    else if name = "flags_reset" then (if operands = [] then some .flagsReset else none)
    else if name = "flags_read" then (if operands = [] then some .flagsRead else none)
    else parseKernel ((head.splitOn '.').map String.ofList) operands

/-- The request a line of assembler text encodes, none where the text is no line of the syntax (R65). -/
def assembleLine (line : String) : Option Request :=
  (parseTokens ((line.toList.splitOn ' ').filter (· ≠ []))).map assemble

end Sys2Proof.Machine
end

