-- ==== Sys2Proof/Machine/Reference.lean ====
section
/-! DEFINITION. What the kernels compute, stated without bit positions (43_rounding_engine.md R137, 00_scope.md R13):
the value of a pattern and correct rounding of an exact number, over any ordered field with a floor. The machine does
not use this file; statements about the kernels are written in its terms. -/

namespace Sys2Proof.Machine

section Field
variable {K : Type} [Field K] [LinearOrder K] [FloorRing K]

/-- The magnitude of a finite pattern, `m * 2^q` (00_scope.md R13). -/
def magOf (K : Type) [Field K] (fmt : Fmt) (a : Pat fmt) : K := ((unpack fmt a).m : K) * 2 ^ (unpack fmt a).q

/-- The value of a finite pattern (00_scope.md R13). -/
def valueOf (K : Type) [Field K] (fmt : Fmt) (a : Pat fmt) : K :=
  if signOf fmt a then -magOf K fmt a else magOf K fmt a

/-- `Rnd(x, q) / 2^q`: the number of multiples of `2^q` that `x` rounds to in the direction the mode and the sign
select (R137). -/
def rndCount (s : Bool) (rm : RoundingMode) (x : K) (q : Int) : Int :=
  let n := ⌊x / 2 ^ q⌋
  let f := x / 2 ^ q - n
  if f = 0 then n
  else
    match rm with
    | .rne => if 1 / 2 < f ∨ (f = 1 / 2 ∧ n % 2 = 1) then n + 1 else n
    | .rmm => if 1 / 2 ≤ f then n + 1 else n
    | .rtz => n
    | .rdn => if s then n + 1 else n
    | .rup => if s then n else n + 1
    | .odd => if n % 2 = 0 then n + 1 else n

/-- `Rnd(x, q)` (R137). -/
def rnd (s : Bool) (rm : RoundingMode) (x : K) (q : Int) : K := (rndCount s rm x q : K) * 2 ^ q

/-- `maxfin = (2 - 2^(1-p)) * 2^emax` (R137). -/
def maxFinValue (K : Type) [Field K] (fmt : Fmt) : K := (2 - 2 ^ (1 - (fmt.p : Int))) * 2 ^ fmt.emax

/-- `yu`: the value rounded as if the exponent range were unbounded (R137). -/
def rndUnbounded (fmt : Fmt) (s : Bool) (rm : RoundingMode) (x : K) : K :=
  rnd s rm x (Int.log 2 x - (fmt.p - 1))

/-- `y`: the value rounded to the format's own grid (R137 (b)). -/
def rndBounded (fmt : Fmt) (s : Bool) (rm : RoundingMode) (x : K) : K :=
  rnd s rm x (max (Int.log 2 x) fmt.emin - (fmt.p - 1))

/-- Whether a magnitude is tiny, before or after rounding (R137 (b)). -/
def tinyValue (fmt : Fmt) (s : Bool) (rm : RoundingMode) (tm : Tininess) (x : K) : Bool :=
  match tm with
  | .before => x < 2 ^ fmt.emin
  | .after => rndUnbounded fmt s rm x < 2 ^ fmt.emin

/-- The overflow results as a table (R135). -/
def overflowTable (fmt : Fmt) (s : Bool) : RoundingMode → Pat fmt
  | .rne | .rmm => infPat fmt s
  | .rtz | .odd => maxFinPat fmt s
  | .rdn => if s then infPat fmt s else maxFinPat fmt s
  | .rup => if s then maxFinPat fmt s else infPat fmt s

/-- `r` is the exact magnitude `x > 0` with sign `s`, correctly rounded, with the right flags (R137). -/
def CorrectlyRounded (fmt : Fmt) (s : Bool) (x : K) (rm : RoundingMode) (tm : Tininess) (r : FloatResult fmt) : Prop :=
  if maxFinValue K fmt < rndUnbounded fmt s rm x then r = (overflowTable fmt s rm, OF ||| NX)
  else
    isFinite fmt r.1 ∧ signOf fmt r.1 = s ∧ magOf K fmt r.1 = rndBounded fmt s rm x ∧
      r.2 = flagIf (rndBounded fmt s rm x ≠ x) NX ||| flagIf (rndBounded fmt s rm x ≠ x ∧ tinyValue fmt s rm tm x) UF

end Field

end Sys2Proof.Machine
end

