-- ==== Sys2Proof/Safety.lean ====
section
/-! DEFINITION. What counts as a safe run: every pending request is well formed, so that no step is refused
(30_encoding.md R63; 60_exceptions.md R280). -/

namespace Sys2Proof.Machine

/-- An input the unit gives a meaning: an assertion of reset, or a well-formed request. -/
def safeInput : HostInput → Bool
  | .request r => r.wellFormed
  | .reset => true

/-- No pending input is an ill-formed request. -/
def State.safe (s : State) : Bool := s.inputs.all safeInput

end Sys2Proof.Machine
end

