-- ==== Sys2Proof/Certificates/Slice0/Obligations.lean ====
section
/-! DEFINITION. The statements for the provers, with the words they are written in. A statement about a family of
requests names its constructors through one of the selectors below. -/

namespace Sys2Proof.Machine

/-- `i` completes at `s` with the response `(z, fl)`: a next state in which `FLAGS` is OR'ed with `fl` and nothing
else of the state is changed (44_nan_and_flag_logic.md R166). The frame of every kernel request is in it. -/
def Answers (i : Instr) (s : State) (z : Word) (fl : FlagSet) : Prop :=
  exec i s = .next { flags := s.flags ||| fl, tininess := s.tininess, inputs := s.inputs, response := some ⟨z, fl⟩ }

/-- `zext_64` (00_scope.md R10). -/
def zext {n : Nat} (z : BitVec n) : Word := z.setWidth 64

/-- Operand fields that hold three patterns of one format. -/
def opsOf (fmt : Fmt) (a b c : Pat fmt) : Operands := ⟨zext a, zext b, zext c⟩

/-- `f32_add`, `f32_sub`, `f64_add`, `f64_sub`. -/
def addSubInstr : Fmt → Bool → RoundingMode → Bool → Operands → Instr
  | .f32, false => .f32_add
  | .f32, true => .f32_sub
  | .f64, false => .f64_add
  | .f64, true => .f64_sub

/-- `f32_mul`, `f64_mul`. -/
def mulInstr : Fmt → RoundingMode → Bool → Operands → Instr
  | .f32 => .f32_mul
  | .f64 => .f64_mul

/-- `f32_div`, `f64_div`. -/
def divInstr : Fmt → RoundingMode → Bool → Operands → Instr
  | .f32 => .f32_div
  | .f64 => .f64_div

/-- `f32_rem`, `f64_rem`. -/
def remInstr : Fmt → RoundingMode → Bool → Operands → Instr
  | .f32 => .f32_rem
  | .f64 => .f64_rem

/-- `f32_sqrt`, `f64_sqrt`. -/
def sqrtInstr : Fmt → RoundingMode → Bool → Operands → Instr
  | .f32 => .f32_sqrt
  | .f64 => .f64_sqrt

/-- `f32_mulAdd`, `f64_mulAdd`. -/
def mulAddInstr : Fmt → RoundingMode → Bool → Operands → Instr
  | .f32 => .f32_mulAdd
  | .f64 => .f64_mulAdd

/-- `f32_roundToInt`, `f64_roundToInt`. -/
def roundToIntInstr : Fmt → RoundingMode → Bool → Operands → Instr
  | .f32 => .f32_roundToInt
  | .f64 => .f64_roundToInt

/-- The twelve comparisons. -/
def compareInstr : Fmt → CompareKind → RoundingMode → Bool → Operands → Instr
  | .f32, .eq => .f32_eq
  | .f32, .le => .f32_le
  | .f32, .lt => .f32_lt
  | .f32, .eqSignaling => .f32_eq_signaling
  | .f32, .leQuiet => .f32_le_quiet
  | .f32, .ltQuiet => .f32_lt_quiet
  | .f64, .eq => .f64_eq
  | .f64, .le => .f64_le
  | .f64, .lt => .f64_lt
  | .f64, .eqSignaling => .f64_eq_signaling
  | .f64, .leQuiet => .f64_le_quiet
  | .f64, .ltQuiet => .f64_lt_quiet

/-- `f32_classify`, `f64_classify`. -/
def classifyInstr : Fmt → RoundingMode → Bool → Operands → Instr
  | .f32 => .f32_classify
  | .f64 => .f64_classify

/-- The eight float-to-integer conversions. -/
def toIntInstr : Fmt → IntFmt → RoundingMode → Bool → Operands → Instr
  | .f32, .ui32 => .f32_to_ui32
  | .f32, .ui64 => .f32_to_ui64
  | .f32, .i32 => .f32_to_i32
  | .f32, .i64 => .f32_to_i64
  | .f64, .ui32 => .f64_to_ui32
  | .f64, .ui64 => .f64_to_ui64
  | .f64, .i32 => .f64_to_i32
  | .f64, .i64 => .f64_to_i64

/-- The eight integer-to-float conversions. -/
def fromIntInstr : Fmt → IntFmt → RoundingMode → Bool → Operands → Instr
  | .f32, .ui32 => .ui32_to_f32
  | .f32, .ui64 => .ui64_to_f32
  | .f32, .i32 => .i32_to_f32
  | .f32, .i64 => .i64_to_f32
  | .f64, .ui32 => .ui32_to_f64
  | .f64, .ui64 => .ui64_to_f64
  | .f64, .i32 => .i32_to_f64
  | .f64, .i64 => .i64_to_f64

/-- `f32_to_f64` and `f64_to_f32`, by their source format. -/
def fromFloatInstr : Fmt → RoundingMode → Bool → Operands → Instr
  | .f32 => .f32_to_f64
  | .f64 => .f64_to_f32

/-- Whether a request is one of the 48 kernel requests (30_encoding.md R58). -/
def isKernel : Instr → Bool
  | .ctx_init _ _ | .flags_reset _ _ | .flags_read _ _ => false
  | _ => true

/-- The sign of the result of add-like operations whose exact value is 0 by cancellation (45_add_sub.md R180). -/
def zeroSign (rm : RoundingMode) : Bool := decide (rm = .rdn)

/-- `NV` when the condition holds, else no flag. -/
def nvIf (c : Prop) [Decidable c] : FlagSet := if c then 0x10#5 else 0#5

/-- `NX` when the condition holds, else no flag. -/
def nxIf (c : Prop) [Decidable c] : FlagSet := if c then 0x01#5 else 0#5

/-- The rounding mode in force when a value is rounded to an integer: round-odd degrades to round-toward-zero
(43_rounding_engine.md R138, 92_eei_decisions.md D14). -/
def towardInt (rm : RoundingMode) : RoundingMode := if rm = .odd then .rtz else rm

/-- The magnitude of a finite pattern rounded to an integer (43_rounding_engine.md R138). -/
def roundedMag (fmt : Fmt) (a : Pat fmt) (rm : RoundingMode) : Int :=
  rndCount (signOf fmt a) (towardInt rm) (magOf ℚ fmt a) 0

/-- The number a pattern that is not a NaN stands for, infinities included. -/
def extValue (fmt : Fmt) (a : Pat fmt) : WithBot (WithTop ℚ) :=
  if isInf fmt a then (if signOf fmt a then ⊥ else ((⊤ : WithTop ℚ) : WithBot (WithTop ℚ)))
  else ((valueOf ℚ fmt a : WithTop ℚ) : WithBot (WithTop ℚ))

/-- The relation a kind of comparison tests. -/
def relation (kind : CompareKind) (x y : WithBot (WithTop ℚ)) : Prop :=
  match kind with
  | .eq | .eqSignaling => x = y
  | .le | .leQuiet => x ≤ y
  | .lt | .ltQuiet => x < y

/-- The ten classes in the order of their bits (48_compare_classify_roundtoint.md R238). -/
def inClass (fmt : Fmt) (a : Pat fmt) : Fin 10 → Bool
  | 0 => isInf fmt a && signOf fmt a
  | 1 => isNormal fmt a && signOf fmt a
  | 2 => isSubnormal fmt a && signOf fmt a
  | 3 => isZero fmt a && signOf fmt a
  | 4 => isZero fmt a && !signOf fmt a
  | 5 => isSubnormal fmt a && !signOf fmt a
  | 6 => isNormal fmt a && !signOf fmt a
  | 7 => isInf fmt a && !signOf fmt a
  | 8 => isSigNaN fmt a
  | 9 => isQuietNaN fmt a

/-- The result of a float-to-integer conversion of a NaN (49_convert.md R251, table). -/
def nanTable : IntFmt → Word
  | .ui32 => 0xFFFFFFFF
  | .ui64 => 0xFFFFFFFFFFFFFFFF
  | .i32 => 0x7FFFFFFF
  | .i64 => 0x7FFFFFFFFFFFFFFF

/-- The result of a float-to-integer conversion above or below the format, by the sign (49_convert.md R251, table). -/
def overflowIntTable : IntFmt → Bool → Word
  | .ui32, false => 0xFFFFFFFF
  | .ui64, false => 0xFFFFFFFFFFFFFFFF
  | .i32, false => 0x7FFFFFFF
  | .i64, false => 0x7FFFFFFFFFFFFFFF
  | .ui32, true => 0
  | .ui64, true => 0
  | .i32, true => 0x80000000
  | .i64, true => 0x8000000000000000

/-- The flag sets each request can return (44_nan_and_flag_logic.md R165, table). -/
def allowedFlags : Instr → List FlagSet
  | .f32_add _ _ _ | .f32_sub _ _ _ | .f64_add _ _ _ | .f64_sub _ _ _ => [0, NX, OF ||| NX, NV]
  | .f32_mul _ _ _ | .f32_mulAdd _ _ _ | .f64_mul _ _ _ | .f64_mulAdd _ _ _ | .f64_to_f32 _ _ _ =>
    [0, NX, UF ||| NX, OF ||| NX, NV]
  | .f32_div _ _ _ | .f64_div _ _ _ => [0, NX, UF ||| NX, OF ||| NX, DZ, NV]
  | .f32_sqrt _ _ _ | .f64_sqrt _ _ _ => [0, NX, NV]
  | .f32_rem _ _ _ | .f64_rem _ _ _ | .f32_to_f64 _ _ _ => [0, NV]
  | .f32_roundToInt _ exact _ | .f64_roundToInt _ exact _
  | .f32_to_ui32 _ exact _ | .f32_to_ui64 _ exact _ | .f32_to_i32 _ exact _ | .f32_to_i64 _ exact _
  | .f64_to_ui32 _ exact _ | .f64_to_ui64 _ exact _ | .f64_to_i32 _ exact _ | .f64_to_i64 _ exact _ =>
    if exact then [0, NX, NV] else [0, NV]
  | .f32_eq _ _ _ | .f32_le _ _ _ | .f32_lt _ _ _ | .f32_eq_signaling _ _ _ | .f32_le_quiet _ _ _
  | .f32_lt_quiet _ _ _ | .f64_eq _ _ _ | .f64_le _ _ _ | .f64_lt _ _ _ | .f64_eq_signaling _ _ _
  | .f64_le_quiet _ _ _ | .f64_lt_quiet _ _ _ => [0, NV]
  | .f32_classify _ _ _ | .f64_classify _ _ _ => [0]
  | .ui32_to_f32 _ _ _ | .ui64_to_f32 _ _ _ | .i32_to_f32 _ _ _ | .i64_to_f32 _ _ _
  | .ui64_to_f64 _ _ _ | .i64_to_f64 _ _ _ => [0, NX]
  | .ui32_to_f64 _ _ _ | .i32_to_f64 _ _ _ => [0]
  | .ctx_init _ _ | .flags_reset _ _ | .flags_read _ _ => [0]

/-- The low 32 bits of an operand field, the rest blanked. -/
def low32 (x : Word) : Word := zext (x.setWidth 32)

/-- One, two or three 32-bit operands, every other bit of the operand fields blanked (30_encoding.md R57). -/
def keepA32 (ops : Operands) : Operands := ⟨low32 ops.a, 0, 0⟩
def keepAB32 (ops : Operands) : Operands := ⟨low32 ops.a, low32 ops.b, 0⟩
def keepABC32 (ops : Operands) : Operands := ⟨low32 ops.a, low32 ops.b, low32 ops.c⟩
/-- One or two 64-bit operands, the other operand fields blanked. -/
def keepA64 (ops : Operands) : Operands := ⟨ops.a, 0, 0⟩
def keepAB64 (ops : Operands) : Operands := ⟨ops.a, ops.b, 0⟩

/-- A request with every field it ignores blanked: the columns "operands" and "uses" of 30_encoding.md R58 kept, and
nothing else. -/
def usedFields : Instr → Instr
  | .f32_add rm _ ops => .f32_add rm false (keepAB32 ops)
  | .f32_sub rm _ ops => .f32_sub rm false (keepAB32 ops)
  | .f32_mul rm _ ops => .f32_mul rm false (keepAB32 ops)
  | .f32_div rm _ ops => .f32_div rm false (keepAB32 ops)
  | .f32_rem _ _ ops => .f32_rem .rne false (keepAB32 ops)
  | .f32_sqrt rm _ ops => .f32_sqrt rm false (keepA32 ops)
  | .f32_mulAdd rm _ ops => .f32_mulAdd rm false (keepABC32 ops)
  | .f32_roundToInt rm exact ops => .f32_roundToInt rm exact (keepA32 ops)
  | .f32_eq _ _ ops => .f32_eq .rne false (keepAB32 ops)
  | .f32_le _ _ ops => .f32_le .rne false (keepAB32 ops)
  | .f32_lt _ _ ops => .f32_lt .rne false (keepAB32 ops)
  | .f32_eq_signaling _ _ ops => .f32_eq_signaling .rne false (keepAB32 ops)
  | .f32_le_quiet _ _ ops => .f32_le_quiet .rne false (keepAB32 ops)
  | .f32_lt_quiet _ _ ops => .f32_lt_quiet .rne false (keepAB32 ops)
  | .f32_classify _ _ ops => .f32_classify .rne false (keepA32 ops)
  | .f32_to_ui32 rm exact ops => .f32_to_ui32 rm exact (keepA32 ops)
  | .f32_to_ui64 rm exact ops => .f32_to_ui64 rm exact (keepA32 ops)
  | .f32_to_i32 rm exact ops => .f32_to_i32 rm exact (keepA32 ops)
  | .f32_to_i64 rm exact ops => .f32_to_i64 rm exact (keepA32 ops)
  | .ui32_to_f32 rm _ ops => .ui32_to_f32 rm false (keepA32 ops)
  | .ui64_to_f32 rm _ ops => .ui64_to_f32 rm false (keepA64 ops)
  | .i32_to_f32 rm _ ops => .i32_to_f32 rm false (keepA32 ops)
  | .i64_to_f32 rm _ ops => .i64_to_f32 rm false (keepA64 ops)
  | .f32_to_f64 _ _ ops => .f32_to_f64 .rne false (keepA32 ops)
  | .ctx_init _ ops => .ctx_init 0 ⟨zext (ops.a.extractLsb' 0 1), 0, 0⟩
  | .flags_reset _ _ => .flags_reset 0 ⟨0, 0, 0⟩
  | .flags_read _ _ => .flags_read 0 ⟨0, 0, 0⟩
  | .f64_add rm _ ops => .f64_add rm false (keepAB64 ops)
  | .f64_sub rm _ ops => .f64_sub rm false (keepAB64 ops)
  | .f64_mul rm _ ops => .f64_mul rm false (keepAB64 ops)
  | .f64_div rm _ ops => .f64_div rm false (keepAB64 ops)
  | .f64_rem _ _ ops => .f64_rem .rne false (keepAB64 ops)
  | .f64_sqrt rm _ ops => .f64_sqrt rm false (keepA64 ops)
  | .f64_mulAdd rm _ ops => .f64_mulAdd rm false ops
  | .f64_roundToInt rm exact ops => .f64_roundToInt rm exact (keepA64 ops)
  | .f64_eq _ _ ops => .f64_eq .rne false (keepAB64 ops)
  | .f64_le _ _ ops => .f64_le .rne false (keepAB64 ops)
  | .f64_lt _ _ ops => .f64_lt .rne false (keepAB64 ops)
  | .f64_eq_signaling _ _ ops => .f64_eq_signaling .rne false (keepAB64 ops)
  | .f64_le_quiet _ _ ops => .f64_le_quiet .rne false (keepAB64 ops)
  | .f64_lt_quiet _ _ ops => .f64_lt_quiet .rne false (keepAB64 ops)
  | .f64_classify _ _ ops => .f64_classify .rne false (keepA64 ops)
  | .f64_to_ui32 rm exact ops => .f64_to_ui32 rm exact (keepA64 ops)
  | .f64_to_ui64 rm exact ops => .f64_to_ui64 rm exact (keepA64 ops)
  | .f64_to_i32 rm exact ops => .f64_to_i32 rm exact (keepA64 ops)
  | .f64_to_i64 rm exact ops => .f64_to_i64 rm exact (keepA64 ops)
  | .ui32_to_f64 _ _ ops => .ui32_to_f64 .rne false (keepA32 ops)
  | .ui64_to_f64 rm _ ops => .ui64_to_f64 rm false (keepA64 ops)
  | .i32_to_f64 _ _ ops => .i32_to_f64 .rne false (keepA32 ops)
  | .i64_to_f64 rm _ ops => .i64_to_f64 rm false (keepA64 ops)
  | .f64_to_f32 rm _ ops => .f64_to_f32 rm false (keepA64 ops)

/-- The flags a request returns to a unit whose tininess mode is `tm`. -/
def flagsOf (tm : Tininess) (r : Request) : FlagSet :=
  match decode r with
  | .error _ => 0
  | .ok i =>
    match exec i { flags := 0, tininess := tm, inputs := [], response := none } with
    | .next t => (t.response.map Response.fl).getD 0
    | _ => 0

/-- Underflow and overflow never stand without inexact, and what a response reports is one of the sets a single
request can return (60_exceptions.md R282). -/
def FlagsConsistent (s : State) : Prop :=
  (s.flags.getLsbD 1 = true → s.flags.getLsbD 0 = true) ∧
  (s.flags.getLsbD 2 = true → s.flags.getLsbD 0 = true) ∧
  ∀ p, s.response = some p → p.fl ∈ [0, NX, UF ||| NX, OF ||| NX, DZ, NV]

/-- The rounding mode that rounds a negated value to the negated result: the two directed modes swap roles
(45_add_sub.md R188). -/
def mirrored : RoundingMode → RoundingMode
  | .rdn => .rup
  | .rup => .rdn
  | rm => rm

end Sys2Proof.Machine

open Sys2Proof Sys2Proof.Machine

/-! ## Encoding -/

/-- 30_encoding.md R56, R58, R60, R64: what the encoder writes decodes to the instruction it was written for. An
instruction that keeps the fields it ignores, `CMD[9:6]` of a control request among them, is the model's choice (log
entry 4, DESIGN CHOICE); R64's own `Decode` drops them. -/
def Obligations.DecodeInvertsEncode : Prop := ∀ i : Instr, decode (encode i) = .ok i

/-- A decoded request is the encoding of what it decodes to, so no bit of it is lost. That is the model's choice (log
entry 4, DESIGN CHOICE): an instruction keeps the fields it ignores, and a control request keeps `CMD[9:6]`, where the
`Decode` of 30_encoding.md R64 answers `Control(op)` and drops them. The places of the fields are R56, R58 and R60. -/
def Obligations.EncodeInvertsDecode : Prop := ∀ (r : Request) (i : Instr), decode r = .ok i → encode i = r

/-- 30_encoding.md R63: a request decodes exactly when it is well formed, and a step refuses exactly the ill-formed
ones, whatever its operands. The pending inputs are the model's (log entry 1), and so is the name of the refusal (log
entry 11, DEDUCED). -/
def Obligations.RefusedExactlyWhenIllFormed : Prop :=
  ∀ (r : Request) (s : State) (rest : List HostInput), s.inputs = .request r :: rest →
    ((∃ i, decode r = .ok i) ↔ r.wellFormed = true) ∧
    ((∃ why, step s = .refused (.illFormed why)) ↔ r.wellFormed = false) ∧
    (r.wellFormed = true → ∃ t, step s = .next t)

/-- The decoder's three rejections, each by name. The tests and their order are those of 30_encoding.md R64, which
answers only `invalid` on each; the three names are the model's (log entry 11, DEDUCED). -/
def Obligations.DecodeRejectsByName : Prop :=
  ∀ r : Request,
    (decode r = .error .reservedBits ↔ r.reservedClear = false) ∧
    (decode r = .error .unassignedOp ↔ r.reservedClear = true ∧ r.opAssigned = false) ∧
    (decode r = .error .reservedRoundingMode ↔
      r.reservedClear = true ∧ r.opAssigned = true ∧ r.modeAllowed = false)

/-- Words written out from the encoding tables (30_encoding.md R56, R58, R60, R65) decode to the
instructions they stand for. That the decoded instruction carries what its request ignores is the model's choice (log
entry 4, DESIGN CHOICE): the operand fields, and in the last two clauses the `CMD[9:6]` of a control request (0 and 14),
which R64's own `Decode` drops, answering `Control(op)`. -/
def Obligations.WrittenWordsDecode : Prop :=
  ∀ ops : Operands,
    decode ⟨0b000000_0_000_000000#16, ops⟩ = .ok (.f32_add .rne false ops) ∧
    decode ⟨0b000000_0_001_100011#16, ops⟩ = .ok (.f64_div .rtz false ops) ∧
    decode ⟨0b000000_0_011_000110#16, ops⟩ = .ok (.f32_mulAdd .rup false ops) ∧
    decode ⟨0b000000_1_010_110010#16, ops⟩ = .ok (.f64_to_i32 .rdn true ops) ∧
    decode ⟨0b000000_0_101_010111#16, ops⟩ = .ok (.i64_to_f32 .odd false ops) ∧
    decode ⟨0b000000_1_100_100111#16, ops⟩ = .ok (.f64_roundToInt .rmm true ops) ∧
    decode ⟨0b000000_0_000_101011#16, ops⟩ = .ok (.f64_eq_signaling .rne false ops) ∧
    decode ⟨0b000000_0_000_011101#16, ops⟩ = .ok (.ctx_init 0 ops) ∧
    decode ⟨0b000000_1_110_011111#16, ops⟩ = .ok (.flags_read 14 ops)

/-- 30_encoding.md R65: every line of assembler text that encodes a request encodes a well-formed one. How a text is cut
into tokens and the case of its digits are the model's choice (log entry 10, DESIGN CHOICE). -/
def Obligations.AssembledLinesAreWellFormed : Prop :=
  ∀ (line : String) (r : Request), assembleLine line = some r → r.wellFormed = true

/-- A step takes the host's oldest request and runs the instruction it decodes to (00_scope.md R9, 20_memory.md R47;
the queue of inputs is the model's, log entry 1). -/
def Obligations.StepRunsDecodedInstruction : Prop :=
  ∀ (s : State) (r : Request) (rest : List HostInput) (i : Instr),
    s.inputs = .request r :: rest → decode r = .ok i → step s = exec i { s with inputs := rest }

/-- 30_encoding.md R57, R58, R60, R62: the bits a request ignores have no effect, neither on the response nor on the
state: the upper half of a 32-bit operand field, unused operand fields, `exact` outside the ten requests that read it,
`rm` where the table says it has no effect, `CMD[9:6]` of a control request. That an instruction carries these bits at
all is the model's choice (log entry 4, DESIGN CHOICE). -/
def Obligations.IgnoredFieldsHaveNoEffect : Prop := ∀ (i : Instr) (s : State), exec (usedFields i) s = exec i s

/-! ## State -/

/-- 10_state.md R33: the state after reset. -/
def Obligations.StateAfterReset : Prop := State.reset.flags = 0b00000#5 ∧ tininessCode State.reset.tininess = 1#1

/-- 70_reset_and_hazards.md R300: reset from any state leaves `FLAGS` empty and `TININESS` at `P_RESET_TININESS`
(`AFTER`), returns no response, and leaves the two registers as the request `ctx_init` with that code does. The clauses
`t.inputs = rest` (requests issued after the reset stay pending; log entry 6, DEDUCED) and `t.response = none` (the field
a response stands in; log entry 2, DESIGN CHOICE) are the model's own. -/
def Obligations.ResetFromAnyState : Prop :=
  ∀ (s : State) (rest : List HostInput), s.inputs = .reset :: rest →
    ∃ t, step s = .next t ∧ t.flags = 0#5 ∧ t.tininess = .after ∧ config.resetTininess = .after ∧
      t.response = none ∧ t.inputs = rest ∧
      ∀ (spare : BitVec 4) (ops : Operands), ops.a.getLsbD 0 = true →
        ∃ u, exec (.ctx_init spare ops) s = .next u ∧ u.flags = t.flags ∧ u.tininess = t.tininess

/-- The model's choice (log entry 3): with no input pending a step leaves the state as it is. -/
def Obligations.IdleStepKeepsState : Prop := ∀ s : State, s.inputs = [] → step s = .next s

/-- 44_nan_and_flag_logic.md R166, R168: a kernel request has, for each tininess mode, one response whatever the state;
its result does not depend on the mode and its flags differ only in the underflow bit; merging the flags is the only
change of the state. -/
def Obligations.KernelRequestOnlyMergesFlags : Prop :=
  ∀ i : Instr, isKernel i = true →
    ∃ (z : Word) (fl : Tininess → FlagSet),
      (∀ k, k ≠ 1 → (fl .before).getLsbD k = (fl .after).getLsbD k) ∧
      ∀ s : State, Answers i s z (fl s.tininess)

/-- 10_state.md R22: every kernel request ends with the returned flags OR'ed into `FLAGS`; what it returns does not
depend on the flags accumulated so far; a step that clears a bit took a reset, a `ctx_init` or a `flags_reset`. -/
def Obligations.FlagsAccumulate : Prop :=
  (∀ (i : Instr) (s : State), isKernel i = true →
    ∃ t p, exec i s = .next t ∧ t.response = some p ∧ t.flags = s.flags ||| p.fl ∧
      ∀ f, exec i { s with flags := f } = .next { t with flags := f ||| p.fl }) ∧
  ∀ (s t : State) (k : Nat), step s = .next t → s.flags.getLsbD k = true → t.flags.getLsbD k = false →
    (∃ rest, s.inputs = .reset :: rest) ∨
    (∃ r rest spare ops, s.inputs = .request r :: rest ∧
      (decode r = .ok (.ctx_init spare ops) ∨ decode r = .ok (.flags_reset spare ops)))

/-- 10_state.md R23: `TININESS` is written only by `ctx_init`, from `A[0]` with 0 = `BEFORE` and 1 = `AFTER`, and by
reset; a step that changes it leaves no accumulated flag; a kernel request's result does not depend on it. -/
def Obligations.TininessWrittenOnlyByCtxInit : Prop :=
  (∀ (s t : State), step s = .next t → t.tininess ≠ s.tininess →
    t.flags = 0#5 ∧
    ((∃ rest, s.inputs = .reset :: rest) ∨
     (∃ r rest spare ops, s.inputs = .request r :: rest ∧ decode r = .ok (.ctx_init spare ops) ∧
       tininessCode t.tininess = ops.a.extractLsb' 0 1))) ∧
  tininessCode .before = 0#1 ∧ tininessCode .after = 1#1 ∧
  ∀ (i : Instr) (s : State), isKernel i = true →
    ∃ z fl fl', Answers i { s with tininess := .before } z fl ∧ Answers i { s with tininess := .after } z fl' ∧
      ∀ k, k ≠ 1 → fl.getLsbD k = fl'.getLsbD k

/-- 20_memory.md R47 (a): a run of kernel requests completes, answers each of them, and leaves `FLAGS` as it was OR'ed
with what each returned, in whatever order. The list of pending inputs is the model's (log entry 1). -/
def Obligations.RunOfKernelRequestsAccumulates : Prop :=
  ∀ (rs : List Request) (s : State) (later : List HostInput),
    (∀ r ∈ rs, ∃ i, decode r = .ok i ∧ isKernel i = true) →
    s.inputs = rs.map HostInput.request ++ later →
    (∃ t : State, Host.Core.run core rs.length s = .next t ∧ t.inputs = later ∧ t.tininess = s.tininess ∧
      t.flags = rs.foldl (fun f r => f ||| flagsOf s.tininess r) s.flags) ∧
    ∀ rs' : List Request, rs.Perm rs' →
      rs'.foldl (fun f r => f ||| flagsOf s.tininess r) s.flags =
        rs.foldl (fun f r => f ||| flagsOf s.tininess r) s.flags

/-- 44_nan_and_flag_logic.md R170: `ctx_init`; and no request changes `TININESS` and keeps `FLAGS`. -/
def Obligations.CtxInit : Prop :=
  (∀ (spare : BitVec 4) (ops : Operands) (s : State),
    exec (.ctx_init spare ops) s =
      .next { flags := 0#5, tininess := (if ops.a.getLsbD 0 then .after else .before), inputs := s.inputs,
              response := some ⟨0, 0⟩ }) ∧
  ∀ (i : Instr) (s t : State), exec i s = .next t → t.tininess ≠ s.tininess → t.flags = 0#5

/-- 44_nan_and_flag_logic.md R171: `flags_reset`; and no request clears one flag without clearing all five. -/
def Obligations.FlagsReset : Prop :=
  (∀ (spare : BitVec 4) (ops : Operands) (s : State),
    exec (.flags_reset spare ops) s =
      .next { flags := 0#5, tininess := s.tininess, inputs := s.inputs, response := some ⟨0, 0⟩ }) ∧
  ∀ (i : Instr) (s t : State) (k : Nat), exec i s = .next t →
    s.flags.getLsbD k = true → t.flags.getLsbD k = false → t.flags = 0#5

/-- 44_nan_and_flag_logic.md R172, R173: `flags_read` returns the five flags in bits 4 to 0, the other bits 0, and
writes nothing; each predicate is its bit. -/
def Obligations.FlagsRead : Prop :=
  ∀ (spare : BitVec 4) (ops : Operands) (s : State),
    ∃ z : Word,
      exec (.flags_read spare ops) s =
        .next { flags := s.flags, tininess := s.tininess, inputs := s.inputs, response := some ⟨z, 0⟩ } ∧
      z.getLsbD 0 = isInexact s.flags ∧ z.getLsbD 1 = isUnderflow s.flags ∧ z.getLsbD 2 = isOverflow s.flags ∧
      z.getLsbD 3 = isInfinite s.flags ∧ z.getLsbD 4 = isInvalid s.flags ∧ ∀ k, 5 ≤ k → z.getLsbD k = false

/-- 60_exceptions.md R280: no request traps. From a state whose pending requests are well formed a step answers a next
state, again such a state, and a request is answered. R280 speaks of requests only: that a step with no input pending
answers a next state is the model's choice (log entry 3, DESIGN CHOICE), and so is the list of pending inputs (log entry
1). That no step faults holds by type: `Fault` has no constructor (log entry 11, DEDUCED). -/
def Obligations.WellFormedRequestsComplete : Prop :=
  (∀ s : State, s.safe = true → ∃ t, step s = .next t ∧ t.safe = true ∧
    ∀ r rest, s.inputs = .request r :: rest → ∃ p, t.response = some p) ∧
  ∀ (s : State) (f : Fault), step s ≠ .fault f

/-- 44_nan_and_flag_logic.md R165: every request completes, and returns one of the flag sets of its row. -/
def Obligations.FlagSetsPerRequest : Prop :=
  ∀ (i : Instr) (s : State), ∃ t p, exec i s = .next t ∧ t.response = some p ∧ p.fl ∈ allowedFlags i

/-- 60_exceptions.md R282: every step keeps the flags consistent. -/
def Obligations.StepKeepsFlagsConsistent : Prop :=
  ∀ s t : State, FlagsConsistent s → step s = .next t → FlagsConsistent t

/-- The flags are consistent after reset. -/
def Obligations.ResetFlagsConsistent : Prop := FlagsConsistent State.reset

/-! ## The codec, the shifter, the normaliser and the rounding engine -/

/-- 40_bit_pack_unpack.md R83: packing inverts extraction, both ways. -/
def Obligations.PackInvertsExtraction : Prop :=
  ∀ fmt : Fmt,
    (∀ a : Pat fmt, pack fmt (signOf fmt a) (expOf fmt a) (fracOf fmt a) = a) ∧
    ∀ (s : Bool) (e f : Nat), e ≤ fmt.expMax → f < 2 ^ fmt.t →
      signOf fmt (pack fmt s e f) = s ∧ expOf fmt (pack fmt s e f) = e ∧ fracOf fmt (pack fmt s e f) = f

/-- 40_bit_pack_unpack.md R85, R86: every pattern is in exactly one class, and a NaN is either signaling or quiet. -/
def Obligations.ClassesPartitionPatterns : Prop :=
  ∀ (fmt : Fmt) (a : Pat fmt),
    [isNaN fmt a, isInf fmt a, isZero fmt a, isSubnormal fmt a, isNormal fmt a].count true = 1 ∧
    isNaN fmt a = (isSigNaN fmt a || isQuietNaN fmt a) ∧ (isSigNaN fmt a && isQuietNaN fmt a) = false

/-- 41_sticky_shifter.md R105: composition, order and rounding safety of the shift with jam. -/
def Obligations.JamLaws : Prop :=
  ∀ n a b d d' : Nat, a < 2 ^ n → b < 2 ^ n →
    shiftRightJam n (shiftRightJam n a d) d' = shiftRightJam n a (d + d') ∧
    (a ≤ b → shiftRightJam n a d ≤ shiftRightJam n b d) ∧
    ∀ h, 1 ≤ h → d < n →
      (shiftRightJam n a d % 2 ^ (h + 1) = 0 ↔ a % 2 ^ (h + 1 + d) = 0) ∧
      (shiftRightJam n a d % 2 ^ (h + 1) < 2 ^ h ↔ a % 2 ^ (h + 1 + d) < 2 ^ (h + d)) ∧
      (shiftRightJam n a d % 2 ^ (h + 1) = 2 ^ h ↔ a % 2 ^ (h + 1 + d) = 2 ^ (h + d))

/-- 41_sticky_shifter.md R104: how the shifted word and the word of lost bits are read. -/
def Obligations.ExtraWordReadsLostBits : Prop :=
  ∀ a d : Nat, a < 2 ^ 64 → 1 ≤ d →
    (shiftRightJam64Extra a 0 d).1 = a / 2 ^ d ∧
    ((shiftRightJam64Extra a 0 d).2 = 0 ↔ a % 2 ^ d = 0) ∧
    ((shiftRightJam64Extra a 0 d).2 = 2 ^ 63 ↔ 2 * (a % 2 ^ d) = 2 ^ d) ∧
    (2 ^ 63 < (shiftRightJam64Extra a 0 d).2 ↔ 2 ^ d < 2 * (a % 2 ^ d)) ∧
    (shiftRightJam64Extra a 0 d).2 < 2 ^ 64

/-- 42_normalizer.md R121: subnormal normalisation puts the leading 1 in place and keeps the value. -/
def Obligations.SubnormalNormalisationKeepsValue : Prop :=
  ∀ (fmt : Fmt) (frac : Nat), 0 < frac → frac < 2 ^ fmt.t →
    ∃ (e : Int) (sig : Nat), normSubnormalSig fmt frac = some (e, sig) ∧
      2 ^ fmt.t ≤ sig ∧ sig < 2 ^ fmt.p ∧ e ≤ 0 ∧
      (frac : ℚ) * 2 ^ (fmt.emin - fmt.t) = sig * 2 ^ (e - fmt.bias - fmt.t)

/-- 42_normalizer.md R124: norm-round-pack is the rounding of the exact value its arguments stand for. -/
def Obligations.NormRoundPackIsRoundExact : Prop :=
  ∀ (fmt : Fmt) (sign : Bool) (e : Int) (sig : Nat) (rm : RoundingMode) (tm : Tininess),
    0 < sig → sig < 2 ^ (fmt.k - 1) →
    normRoundPack fmt sign e sig rm tm = roundExact fmt sign sig false (e - fmt.bias - (fmt.k - 3)) rm tm

/-- 43_rounding_engine.md R136, R137: the rounding engine, reached through the bridge, is correct rounding with the
right flags: of the exact magnitude `m * 2^e`, or of any magnitude strictly between it and `(m + 1) * 2^e`. -/
def Obligations.RoundExactIsCorrectRounding : Prop :=
  ∀ (K : Type) [Field K] [LinearOrder K] [IsStrictOrderedRing K] [FloorRing K]
    (fmt : Fmt) (s : Bool) (m : Nat) (sticky : Bool) (e : Int) (rm : RoundingMode) (tm : Tininess) (x : K),
    0 < m →
    (if sticky then (m : K) * 2 ^ e < x ∧ x < ((m : K) + 1) * 2 ^ e ∧ fmt.k - 1 ≤ bitlen m
      else x = (m : K) * 2 ^ e) →
    CorrectlyRounded fmt s x rm tm (roundExact fmt s m sticky e rm tm)

/-- 43_rounding_engine.md R138 with `P_ODD_TO_INT = rtz`: the magnitude `m * 2^e` rounded to an integer in the
direction the mode and the sign select, and whether that changed it. -/
def Obligations.RoundIntMagRoundsToInteger : Prop :=
  ∀ (s : Bool) (m : Nat) (e : Int) (rm : RoundingMode),
    ((roundIntMag config s m e rm).1 : Int) = rndCount s (towardInt rm) ((m : ℚ) * 2 ^ e) 0 ∧
    ((roundIntMag config s m e rm).2 = true ↔ ((roundIntMag config s m e rm).1 : ℚ) ≠ (m : ℚ) * 2 ^ e)

/-! ## Special operands -/

/-- 44_nan_and_flag_logic.md R150, R153: a NaN operand of an operation with a float result gives the canonical NaN,
with `NV` exactly when an operand is a signaling NaN, or when it is the addend of zero times infinity. -/
def Obligations.NaNOperands : Prop :=
  ∀ (fmt : Fmt) (rm : RoundingMode) (exact : Bool) (ops : Operands) (s : State),
    let a := patOf fmt ops.a
    let b := patOf fmt ops.b
    let c := patOf fmt ops.c
    let zi := (isZero fmt a ∧ isInf fmt b) ∨ (isInf fmt a ∧ isZero fmt b)
    ((isNaN fmt a ∨ isNaN fmt b) →
      ∀ i ∈ [addSubInstr fmt false, addSubInstr fmt true, mulInstr fmt, divInstr fmt, remInstr fmt],
        Answers (i rm exact ops) s (zext (cnan fmt)) (nvIf (isSigNaN fmt a ∨ isSigNaN fmt b))) ∧
    (isNaN fmt a →
      (∀ i ∈ [sqrtInstr fmt, roundToIntInstr fmt],
        Answers (i rm exact ops) s (zext (cnan fmt)) (nvIf (isSigNaN fmt a))) ∧
      Answers (fromFloatInstr fmt rm exact ops) s (zext (cnan fmt.other)) (nvIf (isSigNaN fmt a))) ∧
    ((isNaN fmt a ∨ isNaN fmt b ∨ isNaN fmt c) →
      Answers (mulAddInstr fmt rm exact ops) s (zext (cnan fmt))
        (nvIf (isSigNaN fmt a ∨ isSigNaN fmt b ∨ isSigNaN fmt c ∨ zi)) ∧
      ∀ (cfg : Config) (tm : Tininess), isQuietNaN fmt c → zi →
        mulAdd cfg fmt a b c rm tm = (cnan fmt, nvIf (cfg.fmaInvalidZeroInfQNaN = true)))

/-- 44_nan_and_flag_logic.md R152: the invalid operations on operands that are not NaNs. -/
def Obligations.InvalidOperations : Prop :=
  ∀ (fmt : Fmt) (rm : RoundingMode) (exact : Bool) (ops : Operands) (s : State),
    let a := patOf fmt ops.a
    let b := patOf fmt ops.b
    let c := patOf fmt ops.c
    let zeroInf := (isZero fmt a ∧ isInf fmt b) ∨ (isInf fmt a ∧ isZero fmt b)
    let bad := fun i : RoundingMode → Bool → Operands → Instr => Answers (i rm exact ops) s (zext (cnan fmt)) 0x10#5
    ((isZero fmt a ∧ isZero fmt b) → bad (divInstr fmt)) ∧
    ((isInf fmt a ∧ isInf fmt b) → bad (divInstr fmt)) ∧
    (zeroInf → bad (mulInstr fmt)) ∧
    (zeroInf → ¬ isNaN fmt c → bad (mulAddInstr fmt)) ∧
    ((signOf fmt a ∧ ¬ isZero fmt a ∧ ¬ isNaN fmt a) → bad (sqrtInstr fmt)) ∧
    ((isInf fmt a ∧ isInf fmt b ∧ signOf fmt a ≠ signOf fmt b) → bad (addSubInstr fmt false)) ∧
    ((isInf fmt a ∧ isInf fmt b ∧ signOf fmt a = signOf fmt b) → bad (addSubInstr fmt true)) ∧
    (((isInf fmt a ∧ ¬ isNaN fmt b) ∨ (isInf fmt b ∧ ¬ isNaN fmt a)) →
      (isInf fmt c ∧ signOf fmt c ≠ (signOf fmt a ^^ signOf fmt b)) → bad (mulAddInstr fmt)) ∧
    ((isInf fmt a ∧ ¬ isNaN fmt b) → bad (remInstr fmt)) ∧
    ((isZero fmt b ∧ ¬ isNaN fmt a) → bad (remInstr fmt))

/-- 44_nan_and_flag_logic.md R154: infinity arithmetic raises nothing. -/
def Obligations.InfinityArithmetic : Prop :=
  ∀ (fmt : Fmt) (rm : RoundingMode) (exact : Bool) (ops : Operands) (s : State),
    let a := patOf fmt ops.a
    let b := patOf fmt ops.b
    let c := patOf fmt ops.c
    let sp := signOf fmt a ^^ signOf fmt b
    let gives := fun (i : RoundingMode → Bool → Operands → Instr) (z : Pat fmt) => Answers (i rm exact ops) s (zext z) 0#5
    ((isInf fmt a ∧ isFinite fmt b) → gives (addSubInstr fmt false) a ∧ gives (addSubInstr fmt true) a) ∧
    ((isFinite fmt a ∧ isInf fmt b) → gives (addSubInstr fmt false) b ∧ gives (addSubInstr fmt true) (negPat fmt b)) ∧
    ((isInf fmt a ∧ isInf fmt b ∧ signOf fmt a = signOf fmt b) → gives (addSubInstr fmt false) a) ∧
    ((isInf fmt a ∧ isInf fmt b ∧ signOf fmt a ≠ signOf fmt b) → gives (addSubInstr fmt true) a) ∧
    (((isInf fmt a ∧ ¬ isNaN fmt b ∧ ¬ isZero fmt b) ∨ (isInf fmt b ∧ ¬ isNaN fmt a ∧ ¬ isZero fmt a)) →
      gives (mulInstr fmt) (infPat fmt sp) ∧
      ((isFinite fmt c ∨ (isInf fmt c ∧ signOf fmt c = sp)) → gives (mulAddInstr fmt) (infPat fmt sp))) ∧
    ((isFinite fmt a ∧ isFinite fmt b ∧ isInf fmt c) → gives (mulAddInstr fmt) c) ∧
    ((isFinite fmt a ∧ isInf fmt b) → gives (divInstr fmt) (zeroPat fmt sp) ∧ gives (remInstr fmt) a) ∧
    ((isInf fmt a ∧ isFinite fmt b) → gives (divInstr fmt) (infPat fmt sp)) ∧
    ((isInf fmt a ∧ ¬ signOf fmt a) → gives (sqrtInstr fmt) a)

/-- 44_nan_and_flag_logic.md R163: a finite nonzero dividend over a zero divisor gives an infinity, the XOR of the
signs and the `infinite` flag alone; no other request returns that flag; `0/0` returns `NV` and infinity over zero
nothing. -/
def Obligations.DivisionByZero : Prop :=
  (∀ (fmt : Fmt) (rm : RoundingMode) (exact : Bool) (ops : Operands) (s : State),
    let a := patOf fmt ops.a
    let b := patOf fmt ops.b
    isZero fmt b = true →
    ((isFinite fmt a ∧ ¬ isZero fmt a) →
      Answers (divInstr fmt rm exact ops) s (zext (infPat fmt (signOf fmt a ^^ signOf fmt b))) 0x08#5) ∧
    (isZero fmt a → Answers (divInstr fmt rm exact ops) s (zext (cnan fmt)) 0x10#5) ∧
    (isInf fmt a →
      Answers (divInstr fmt rm exact ops) s (zext (infPat fmt (signOf fmt a ^^ signOf fmt b))) 0#5)) ∧
  ∀ (i : Instr) (s t : State) (p : Response), exec i s = .next t → t.response = some p → p.fl.getLsbD 3 = true →
    ∃ fmt rm exact ops, i = divInstr fmt rm exact ops ∧ isFinite fmt (patOf fmt ops.a) = true ∧
      isZero fmt (patOf fmt ops.a) = false ∧ isZero fmt (patOf fmt ops.b) = true

/-! ## Results on finite operands -/

/-- 45_add_sub.md R180: the sum or difference of two finite operands, correctly rounded; an exact zero is positive, or
negative under round-toward-negative, unless both operands are zeros of one effective sign. -/
def Obligations.AddSubOfFinite : Prop :=
  ∀ (fmt : Fmt) (neg : Bool) (rm : RoundingMode) (exact : Bool) (ops : Operands) (s : State),
    let a := patOf fmt ops.a
    let b := patOf fmt ops.b
    let x : ℚ := valueOf ℚ fmt a + (if neg then -valueOf ℚ fmt b else valueOf ℚ fmt b)
    isFinite fmt a = true → isFinite fmt b = true →
    (x ≠ 0 → ∃ r : FloatResult fmt, CorrectlyRounded fmt (decide (x < 0)) |x| rm s.tininess r ∧
      Answers (addSubInstr fmt neg rm exact ops) s (zext r.1) r.2) ∧
    (x = 0 → Answers (addSubInstr fmt neg rm exact ops) s
      (zext (zeroPat fmt (if isZero fmt a ∧ isZero fmt b ∧ signOf fmt a = (signOf fmt b ^^ neg) then signOf fmt a
        else zeroSign rm))) 0#5)

/-- 46_mul_fma.md R190: the product of two finite operands. -/
def Obligations.MulOfFinite : Prop :=
  ∀ (fmt : Fmt) (rm : RoundingMode) (exact : Bool) (ops : Operands) (s : State),
    let a := patOf fmt ops.a
    let b := patOf fmt ops.b
    let sp := signOf fmt a ^^ signOf fmt b
    isFinite fmt a = true → isFinite fmt b = true →
    ((isZero fmt a ∨ isZero fmt b) → Answers (mulInstr fmt rm exact ops) s (zext (zeroPat fmt sp)) 0#5) ∧
    ((¬ isZero fmt a ∧ ¬ isZero fmt b) → ∃ r : FloatResult fmt,
      CorrectlyRounded fmt sp (magOf ℚ fmt a * magOf ℚ fmt b) rm s.tininess r ∧
      Answers (mulInstr fmt rm exact ops) s (zext r.1) r.2)

/-- 46_mul_fma.md R195: the fused multiply-add of finite operands, rounded once; the sign of an exact zero. -/
def Obligations.MulAddOfFinite : Prop :=
  ∀ (fmt : Fmt) (rm : RoundingMode) (exact : Bool) (ops : Operands) (s : State),
    let a := patOf fmt ops.a
    let b := patOf fmt ops.b
    let c := patOf fmt ops.c
    let sp := signOf fmt a ^^ signOf fmt b
    let x : ℚ := valueOf ℚ fmt a * valueOf ℚ fmt b + valueOf ℚ fmt c
    isFinite fmt a = true → isFinite fmt b = true → isFinite fmt c = true →
    (x ≠ 0 → ∃ r : FloatResult fmt, CorrectlyRounded fmt (decide (x < 0)) |x| rm s.tininess r ∧
      Answers (mulAddInstr fmt rm exact ops) s (zext r.1) r.2) ∧
    (x = 0 → Answers (mulAddInstr fmt rm exact ops) s
      (zext (zeroPat fmt (if (isZero fmt a ∨ isZero fmt b) ∧ signOf fmt c = sp then sp else zeroSign rm))) 0#5)

/-- 47_div_rem_sqrt.md R205: the quotient of a finite operand by a finite nonzero one. -/
def Obligations.DivOfFinite : Prop :=
  ∀ (fmt : Fmt) (rm : RoundingMode) (exact : Bool) (ops : Operands) (s : State),
    let a := patOf fmt ops.a
    let b := patOf fmt ops.b
    let sp := signOf fmt a ^^ signOf fmt b
    isFinite fmt a = true → isFinite fmt b = true → isZero fmt b = false →
    (isZero fmt a → Answers (divInstr fmt rm exact ops) s (zext (zeroPat fmt sp)) 0#5) ∧
    (¬ isZero fmt a → ∃ r : FloatResult fmt,
      CorrectlyRounded fmt sp (magOf ℚ fmt a / magOf ℚ fmt b) rm s.tininess r ∧
      Answers (divInstr fmt rm exact ops) s (zext r.1) r.2)

/-- 47_div_rem_sqrt.md R210: the IEEE remainder of a finite operand by a finite nonzero one: `a - n * b` exactly, where
`n` is the integer nearest to the quotient, the even one on a tie; a zero takes the sign of `a`; no flag. -/
def Obligations.RemOfFinite : Prop :=
  ∀ (fmt : Fmt) (rm : RoundingMode) (exact : Bool) (ops : Operands) (s : State),
    let a := patOf fmt ops.a
    let b := patOf fmt ops.b
    isFinite fmt a = true → isFinite fmt b = true → isZero fmt b = false →
    ∃ (n : Int) (z : Pat fmt),
      |valueOf ℚ fmt a / valueOf ℚ fmt b - n| ≤ 1 / 2 ∧
      (|valueOf ℚ fmt a / valueOf ℚ fmt b - n| = 1 / 2 → n % 2 = 0) ∧
      isFinite fmt z = true ∧ valueOf ℚ fmt z = valueOf ℚ fmt a - n * valueOf ℚ fmt b ∧
      (valueOf ℚ fmt z = 0 → signOf fmt z = signOf fmt a) ∧
      Answers (remInstr fmt rm exact ops) s (zext z) 0#5

/-- 47_div_rem_sqrt.md R215: a zero is its own square root; the root of a positive finite operand is correctly
rounded. -/
def Obligations.SqrtOfFinite : Prop :=
  ∀ (fmt : Fmt) (rm : RoundingMode) (exact : Bool) (ops : Operands) (s : State),
    let a := patOf fmt ops.a
    isFinite fmt a = true →
    (isZero fmt a → Answers (sqrtInstr fmt rm exact ops) s (zext a) 0#5) ∧
    ((¬ isZero fmt a ∧ ¬ signOf fmt a) → ∃ r : FloatResult fmt,
      CorrectlyRounded fmt false (Real.sqrt (magOf ℝ fmt a)) rm s.tininess r ∧
      Answers (sqrtInstr fmt rm exact ops) s (zext r.1) r.2)

/-- 48_compare_classify_roundtoint.md R225: the twelve comparisons order the numbers the operands stand for,
infinities included; with a NaN operand every relation is false, and a signaling kind, or a signaling NaN, returns
`NV`. -/
def Obligations.ComparisonsOrderValues : Prop :=
  ∀ (fmt : Fmt) (kind : CompareKind) (rm : RoundingMode) (exact : Bool) (ops : Operands) (s : State),
    let a := patOf fmt ops.a
    let b := patOf fmt ops.b
    ((isNaN fmt a ∨ isNaN fmt b) → Answers (compareInstr fmt kind rm exact ops) s 0
      (nvIf (kind ∈ [.le, .lt, .eqSignaling] ∨ isSigNaN fmt a ∨ isSigNaN fmt b))) ∧
    ((¬ isNaN fmt a ∧ ¬ isNaN fmt b) →
      (relation kind (extValue fmt a) (extValue fmt b) → Answers (compareInstr fmt kind rm exact ops) s 1 0#5) ∧
      (¬ relation kind (extValue fmt a) (extValue fmt b) → Answers (compareInstr fmt kind rm exact ops) s 0 0#5))

/-- 48_compare_classify_roundtoint.md R238: the mask has the bit of the operand's class and no other; no flag. -/
def Obligations.ClassifyReportsTheClass : Prop :=
  ∀ (fmt : Fmt) (rm : RoundingMode) (exact : Bool) (ops : Operands) (s : State),
    ∃ (mask : Word) (k : Fin 10), Answers (classifyInstr fmt rm exact ops) s mask 0#5 ∧
      inClass fmt (patOf fmt ops.a) k = true ∧ ∀ j : Nat, mask.getLsbD j = decide (j = k.val)

/-- 48_compare_classify_roundtoint.md R241: a finite operand rounded to an integer of its own format: the sign is
kept, `NX` is returned exactly when `exact` asks for it and the value changed; an infinity is returned unchanged. -/
def Obligations.RoundToIntOfNonNaN : Prop :=
  ∀ (fmt : Fmt) (rm : RoundingMode) (exact : Bool) (ops : Operands) (s : State),
    let a := patOf fmt ops.a
    (isInf fmt a → Answers (roundToIntInstr fmt rm exact ops) s (zext a) 0#5) ∧
    (isFinite fmt a → ∃ z : Pat fmt,
      isFinite fmt z = true ∧ signOf fmt z = signOf fmt a ∧ magOf ℚ fmt z = roundedMag fmt a rm ∧
      Answers (roundToIntInstr fmt rm exact ops) s (zext z)
        (nxIf (exact = true ∧ (roundedMag fmt a rm : ℚ) ≠ magOf ℚ fmt a)))

/-- 48_compare_classify_roundtoint.md R245: the result of round-to-integer is a fixed point of it; a pattern whose
exponent field is at least `bias + p - 1` and that is not a NaN is returned unchanged. -/
def Obligations.RoundToIntIdempotent : Prop :=
  ∀ (fmt : Fmt) (a : Pat fmt) (rm : RoundingMode) (exact : Bool) (b c : Word) (s : State),
    (∃ (z : Pat fmt) (fl : FlagSet), Answers (roundToIntInstr fmt rm exact ⟨zext a, b, c⟩) s (zext z) fl ∧
      Answers (roundToIntInstr fmt rm exact ⟨zext z, b, c⟩) s (zext z) 0#5) ∧
    ((fmt.bias + fmt.p - 1 ≤ expOf fmt a ∧ ¬ isNaN fmt a) →
      Answers (roundToIntInstr fmt rm exact ⟨zext a, b, c⟩) s (zext a) 0#5)

/-! ## Conversions -/

/-- 49_convert.md R250, R251: float to integer. A NaN, an infinity and a rounded integer outside the format give the
table's value with `NV`; otherwise the rounded integer, with `NX` exactly when `exact` asks for it and rounding changed
the value. The range test is on the rounded integer. -/
def Obligations.FloatToInteger : Prop :=
  ∀ (fmt : Fmt) (ity : IntFmt) (rm : RoundingMode) (exact : Bool) (ops : Operands) (s : State),
    let a := patOf fmt ops.a
    let n : Int := if signOf fmt a then -roundedMag fmt a rm else roundedMag fmt a rm
    (isNaN fmt a → Answers (toIntInstr fmt ity rm exact ops) s (nanTable ity) 0x10#5) ∧
    (isInf fmt a → Answers (toIntInstr fmt ity rm exact ops) s (overflowIntTable ity (signOf fmt a)) 0x10#5) ∧
    (isFinite fmt a →
      (n < ity.min → Answers (toIntInstr fmt ity rm exact ops) s (overflowIntTable ity true) 0x10#5) ∧
      (ity.max < n → Answers (toIntInstr fmt ity rm exact ops) s (overflowIntTable ity false) 0x10#5) ∧
      ((ity.min ≤ n ∧ n ≤ ity.max) → Answers (toIntInstr fmt ity rm exact ops) s (zext (BitVec.ofInt ity.width n))
        (nxIf (exact = true ∧ (n : ℚ) ≠ valueOf ℚ fmt a))))

/-- 49_convert.md R260: integer to float: the integer correctly rounded; zero gives +0. -/
def Obligations.IntegerToFloat : Prop :=
  ∀ (fmt : Fmt) (ity : IntFmt) (rm : RoundingMode) (exact : Bool) (ops : Operands) (s : State),
    let v := intVal ity (ops.a.setWidth ity.width)
    (v = 0 → Answers (fromIntInstr fmt ity rm exact ops) s 0 0#5) ∧
    (v ≠ 0 → ∃ r : FloatResult fmt, CorrectlyRounded fmt (decide (v < 0)) |(v : ℚ)| rm s.tininess r ∧
      Answers (fromIntInstr fmt ity rm exact ops) s (zext r.1) r.2)

/-- 49_convert.md R260: the two 32-bit integer formats convert to F64 exactly, in every mode. -/
def Obligations.Int32ToDoubleIsExact : Prop :=
  ∀ (ity : IntFmt) (rm : RoundingMode) (exact : Bool) (ops : Operands) (s : State), ity.width = 32 →
    ∃ z : Pat .f64, isFinite .f64 z = true ∧ valueOf ℚ .f64 z = intVal ity (ops.a.setWidth ity.width) ∧
      Answers (fromIntInstr .f64 ity rm exact ops) s (zext z) 0#5

/-- 49_convert.md R269: narrowing a pattern that is not a NaN. -/
def Obligations.NarrowOfNonNaN : Prop :=
  ∀ (rm : RoundingMode) (exact : Bool) (ops : Operands) (s : State),
    let a := patOf .f64 ops.a
    (isInf .f64 a → Answers (.f64_to_f32 rm exact ops) s (zext (infPat .f32 (signOf .f64 a))) 0#5) ∧
    (isZero .f64 a → Answers (.f64_to_f32 rm exact ops) s (zext (zeroPat .f32 (signOf .f64 a))) 0#5) ∧
    ((isFinite .f64 a ∧ ¬ isZero .f64 a) → ∃ r : FloatResult .f32,
      CorrectlyRounded .f32 (signOf .f64 a) (magOf ℚ .f64 a) rm s.tininess r ∧
      Answers (.f64_to_f32 rm exact ops) s (zext r.1) r.2)

/-- 49_convert.md R269: widening a pattern that is not a NaN is exact, in every mode, with no flag. -/
def Obligations.WidenOfNonNaN : Prop :=
  ∀ (rm : RoundingMode) (exact : Bool) (ops : Operands) (s : State),
    let a := patOf .f32 ops.a
    (isInf .f32 a → Answers (.f32_to_f64 rm exact ops) s (zext (infPat .f64 (signOf .f32 a))) 0#5) ∧
    (isFinite .f32 a → ∃ z : Pat .f64,
      isFinite .f64 z = true ∧ signOf .f64 z = signOf .f32 a ∧ magOf ℚ .f64 z = magOf ℚ .f32 a ∧
      Answers (.f32_to_f64 rm exact ops) s (zext z) 0#5)

/-- 49_convert.md R276 (a): narrowing what widening returned gives the pattern back, in every mode, with no flag. -/
def Obligations.NarrowInvertsWiden : Prop :=
  ∀ (a : Pat .f32) (rm rm' : RoundingMode) (exact : Bool) (b c : Word) (s : State), isNaN .f32 a = false →
    ∃ z : Word, Answers (.f32_to_f64 rm exact ⟨zext a, b, c⟩) s z 0#5 ∧
      Answers (.f64_to_f32 rm' exact ⟨z, b, c⟩) s (zext a) 0#5

/-- 49_convert.md R276 (b): an integer of magnitude at most `2^p` survives the round trip, with no flag. -/
def Obligations.SmallIntegerRoundTrip : Prop :=
  ∀ (fmt : Fmt) (ity : IntFmt) (x : BitVec ity.width) (rm rm' : RoundingMode) (exact : Bool) (b c : Word) (s : State),
    (intVal ity x).natAbs ≤ 2 ^ fmt.p →
    ∃ z : Word, Answers (fromIntInstr fmt ity rm exact ⟨zext x, b, c⟩) s z 0#5 ∧
      Answers (toIntInstr fmt ity rm' exact ⟨z, b, c⟩) s (zext x) 0#5

/-! ## Algebra -/

/-- 45_add_sub.md R188 (a), (c), (d): add is commutative, sub is add of the negated operand, and adding a zero to a
finite nonzero or infinite operand returns it without a flag. -/
def Obligations.AddLaws : Prop :=
  ∀ (fmt : Fmt) (a b c : Pat fmt) (rm : RoundingMode) (exact : Bool) (s : State),
    exec (addSubInstr fmt false rm exact (opsOf fmt a b c)) s =
      exec (addSubInstr fmt false rm exact (opsOf fmt b a c)) s ∧
    exec (addSubInstr fmt true rm exact (opsOf fmt a b c)) s =
      exec (addSubInstr fmt false rm exact (opsOf fmt a (negPat fmt b) c)) s ∧
    (¬ isNaN fmt a → ¬ isZero fmt a → isZero fmt b →
      Answers (addSubInstr fmt false rm exact (opsOf fmt a b c)) s (zext a) 0#5)

/-- 45_add_sub.md R188 (b): negating both operands of an add negates the result and keeps the flags, with the two
directed modes swapped, when the sum is not an exact zero of operands of opposite signs and not infinity minus
infinity. -/
def Obligations.AddSignSymmetry : Prop :=
  ∀ (fmt : Fmt) (a b c : Pat fmt) (rm : RoundingMode) (exact : Bool) (s : State),
    isNaN fmt a = false → isNaN fmt b = false →
    (signOf fmt a = signOf fmt b ∨
      (¬ (isInf fmt a ∧ isInf fmt b) ∧ (isFinite fmt a → isFinite fmt b → valueOf ℚ fmt a + valueOf ℚ fmt b ≠ 0))) →
    ∃ (z : Pat fmt) (fl : FlagSet),
      Answers (addSubInstr fmt false rm exact (opsOf fmt a b c)) s (zext z) fl ∧
      Answers (addSubInstr fmt false (mirrored rm) exact (opsOf fmt (negPat fmt a) (negPat fmt b) c)) s
        (zext (negPat fmt z)) fl

/-- 46_mul_fma.md R200: multiplication is commutative, fused multiply-add symmetric in its factors; with a zero addend
it is the product, and with a factor 1 the sum. -/
def Obligations.MulLaws : Prop :=
  ∀ (fmt : Fmt) (a b c : Pat fmt) (rm : RoundingMode) (exact : Bool) (s : State),
    exec (mulInstr fmt rm exact (opsOf fmt a b c)) s = exec (mulInstr fmt rm exact (opsOf fmt b a c)) s ∧
    exec (mulAddInstr fmt rm exact (opsOf fmt a b c)) s = exec (mulAddInstr fmt rm exact (opsOf fmt b a c)) s ∧
    ((isFinite fmt a ∧ ¬ isZero fmt a ∧ isFinite fmt b ∧ ¬ isZero fmt b ∧ isZero fmt c) →
      exec (mulAddInstr fmt rm exact (opsOf fmt a b c)) s = exec (mulInstr fmt rm exact (opsOf fmt a b c)) s) ∧
    ((¬ isNaN fmt a ∧ ¬ isNaN fmt c) →
      exec (mulAddInstr fmt rm exact (opsOf fmt a (pack fmt false fmt.bias 0) c)) s =
        exec (addSubInstr fmt false rm exact (opsOf fmt a c b)) s)

/-! ## The datapaths against the kernels (00_scope.md R8) -/

/-- 48_compare_classify_roundtoint.md R249: the comparison datapath returns what the kernel returns. -/
def Obligations.CompareDatapathAgrees : Prop :=
  ∀ (fmt : Fmt) (kind : CompareKind) (a b : Pat fmt), isNaN fmt a = false → isNaN fmt b = false →
    compare fmt kind a b = (compareDatapath fmt kind a b, 0#5)

/-- 45_add_sub.md R181, R182: on finite operands the adder's two magnitude paths return what the kernel returns. -/
def Obligations.AddSubDatapathAgrees : Prop :=
  ∀ (fmt : Fmt) (neg : Bool) (a b : Pat fmt) (rm : RoundingMode) (tm : Tininess),
    isFinite fmt a = true → isFinite fmt b = true →
    addSubDatapath fmt neg a b rm tm = addSub fmt neg a b rm tm

/-- 46_mul_fma.md R191: on finite nonzero operands the multiplier's datapath returns what the kernel returns. -/
def Obligations.MulDatapathAgrees : Prop :=
  ∀ (fmt : Fmt) (a b : Pat fmt) (rm : RoundingMode) (tm : Tininess),
    isFinite fmt a = true → isZero fmt a = false → isFinite fmt b = true → isZero fmt b = false →
    mulDatapath fmt a b rm tm = some (mul fmt a b rm tm)

/-- 47_div_rem_sqrt.md R206: on finite nonzero operands the divider's datapath returns what the kernel returns. -/
def Obligations.DivDatapathAgrees : Prop :=
  ∀ (fmt : Fmt) (a b : Pat fmt) (rm : RoundingMode) (tm : Tininess),
    isFinite fmt a = true → isZero fmt a = false → isFinite fmt b = true → isZero fmt b = false →
    divDatapath fmt a b rm tm = some (div fmt a b rm tm)

/-- 47_div_rem_sqrt.md R216: on a positive finite operand the square-root datapath returns what the kernel returns. -/
def Obligations.SqrtDatapathAgrees : Prop :=
  ∀ (fmt : Fmt) (a : Pat fmt) (rm : RoundingMode) (tm : Tininess),
    isFinite fmt a = true → isZero fmt a = false → signOf fmt a = false →
    sqrtDatapath fmt a rm tm = some (sqrt fmt a rm tm)

/-- 49_convert.md R272: the integer-to-float datapath returns what the kernel returns, for every nonzero integer of
the format. -/
def Obligations.IntToFloatDatapathAgrees : Prop :=
  ∀ (fmt : Fmt) (ity : IntFmt) (x : BitVec ity.width) (rm : RoundingMode) (tm : Tininess), intVal ity x ≠ 0 →
    intToFloatDatapath fmt (decide (intVal ity x < 0)) (intVal ity x).natAbs rm tm = intToFloat fmt ity x rm tm
end

