-- ==== Sys2Proof/Laws/Codec.lean ====
section
/-! SUPPORT. The codec read as arithmetic on the number a pattern stands for: one lemma per function of
40_bit_pack_unpack.md, so that no later proof unfolds a bit extraction. -/

namespace Sys2Proof.Machine

variable (fmt : Fmt) (a : Pat fmt)

theorem expOf_eq : expOf fmt a = a.toNat / 2 ^ fmt.t % 2 ^ fmt.w := by
  simp [expOf, Nat.shiftRight_eq_div_pow]

theorem fracOf_eq : fracOf fmt a = a.toNat % 2 ^ fmt.t := by
  simp [fracOf]

theorem signOf_eq : signOf fmt a = decide (2 ^ (fmt.k - 1) ≤ a.toNat) := by
  have h : signOf fmt a = a.msb := (BitVec.msb_eq_getLsbD_last a).symm
  rw [h, BitVec.msb_eq_decide]

theorem fracOf_lt : fracOf fmt a < 2 ^ fmt.t := by
  rw [fracOf_eq]
  exact Nat.mod_lt _ (Nat.two_pow_pos _)

theorem expOf_lt : expOf fmt a < 2 ^ fmt.w := by
  rw [expOf_eq]
  exact Nat.mod_lt _ (Nat.two_pow_pos _)

theorem expOf_le_expMax : expOf fmt a ≤ fmt.expMax := Nat.le_sub_one_of_lt (expOf_lt fmt a)

/-- A pattern is its three fields. -/
theorem toNat_eq_fields :
    a.toNat = (signOf fmt a).toNat * 2 ^ (fmt.k - 1) + expOf fmt a * 2 ^ fmt.t + fracOf fmt a := by
  have hlt := a.isLt
  rw [expOf_eq, fracOf_eq, signOf_eq]
  cases fmt
  · simp only [Fmt.k, Fmt.t, Fmt.w] at hlt ⊢
    by_cases h : 2 ^ (32 - 1) ≤ a.toNat <;> simp only [h, decide_true, decide_false, Bool.toNat_true, Bool.toNat_false] <;>
      omega
  · simp only [Fmt.k, Fmt.t, Fmt.w] at hlt ⊢
    by_cases h : 2 ^ (64 - 1) ≤ a.toNat <;> simp only [h, decide_true, decide_false, Bool.toNat_true, Bool.toNat_false] <;>
      omega

/-- Packing that stays below `2^k` is an addition. -/
theorem toNat_pack (s : Bool) (e f : Nat) (h : s.toNat * 2 ^ (fmt.k - 1) + e * 2 ^ fmt.t + f < 2 ^ fmt.k) :
    (pack fmt s e f).toNat = s.toNat * 2 ^ (fmt.k - 1) + e * 2 ^ fmt.t + f := by
  have hc : pack fmt s e f = BitVec.ofNat fmt.k (s.toNat * 2 ^ (fmt.k - 1) + e * 2 ^ fmt.t + f) := by
    rw [pack, ← BitVec.ofInt_natCast]
    push_cast
    rfl
  rw [hc, BitVec.toNat_ofNat, Nat.mod_eq_of_lt h]

/-- The significand of a finite pattern has at most `p` bits. -/
theorem unpack_m_lt : (unpack fmt a).m < 2 ^ fmt.p := by
  have h := fracOf_lt fmt a
  have hp : 2 ^ fmt.p = 2 ^ fmt.t + 2 ^ fmt.t := by rw [Fmt.p, pow_succ]; omega
  unfold unpack
  split
  · simp only; omega
  · simp only; omega

theorem unpack_sign : (unpack fmt a).sign = signOf fmt a := by
  unfold unpack
  split <;> rfl

/-- The significand is 0 exactly for a zero. -/
theorem unpack_m_eq_zero : (unpack fmt a).m = 0 ↔ isZero fmt a = true := by
  unfold unpack isZero
  by_cases h : expOf fmt a = 0
  · simp [h]
  · simp [h]

/-- Reading back the field a pattern was put into. -/
@[simp] theorem patOf_setWidth : patOf fmt (BitVec.setWidth 64 a) = a := by
  cases fmt
  · apply BitVec.eq_of_toNat_eq
    have := a.isLt
    simp only [patOf, BitVec.toNat_setWidth, Fmt.k] at this ⊢
    omega
  · simp [patOf]

end Sys2Proof.Machine
end

