-- ==== Sys2Proof/Laws/State.lean ====
section
/-! SUPPORT. One lemma per field per update of State, so that no proof unfolds a record update. -/

namespace Sys2Proof.Machine.State

variable (s : State) (fl : FlagSet) (z : Word) (tm : Tininess) (rest : List HostInput) (nbits w : Nat)

@[simp] theorem accumulate_flags : (s.accumulate fl).flags = s.flags ||| fl := rfl
@[simp] theorem accumulate_tininess : (s.accumulate fl).tininess = s.tininess := rfl
@[simp] theorem accumulate_inputs : (s.accumulate fl).inputs = s.inputs := rfl
@[simp] theorem accumulate_response : (s.accumulate fl).response = s.response := rfl

@[simp] theorem respond_flags : (s.respond z fl).flags = s.flags := rfl
@[simp] theorem respond_tininess : (s.respond z fl).tininess = s.tininess := rfl
@[simp] theorem respond_inputs : (s.respond z fl).inputs = s.inputs := rfl
@[simp] theorem respond_response : (s.respond z fl).response = some ⟨z, fl⟩ := rfl

@[simp] theorem setContext_flags : (s.setContext fl tm).flags = fl := rfl
@[simp] theorem setContext_tininess : (s.setContext fl tm).tininess = tm := rfl
@[simp] theorem setContext_inputs : (s.setContext fl tm).inputs = s.inputs := rfl
@[simp] theorem setContext_response : (s.setContext fl tm).response = s.response := rfl

@[simp] theorem taking_flags : (s.taking rest).flags = s.flags := rfl
@[simp] theorem taking_tininess : (s.taking rest).tininess = s.tininess := rfl
@[simp] theorem taking_inputs : (s.taking rest).inputs = rest := rfl
@[simp] theorem taking_response : (s.taking rest).response = s.response := rfl

@[simp] theorem afterReset_flags : (State.afterReset rest).flags = 0#5 := rfl
@[simp] theorem afterReset_tininess : (State.afterReset rest).tininess = config.resetTininess := rfl
@[simp] theorem afterReset_inputs : (State.afterReset rest).inputs = rest := rfl
@[simp] theorem afterReset_response : (State.afterReset rest).response = none := rfl

@[simp] theorem withFetchWord_flags : (s.withFetchWord nbits w).flags = s.flags := rfl
@[simp] theorem withFetchWord_tininess : (s.withFetchWord nbits w).tininess = s.tininess := rfl
@[simp] theorem withFetchWord_response : (s.withFetchWord nbits w).response = s.response := rfl
@[simp] theorem withFetchWord_inputs :
    (s.withFetchWord nbits w).inputs = .request (Request.ofBits (w % 2 ^ nbits)) :: s.inputs := rfl

@[simp] theorem reset_flags : State.reset.flags = 0#5 := rfl
@[simp] theorem reset_inputs : State.reset.inputs = [] := rfl
@[simp] theorem reset_response : State.reset.response = none := rfl

/-- Two states with the same four fields are the same state. -/
@[ext] theorem ext_fields {s t : State} (hf : s.flags = t.flags) (ht : s.tininess = t.tininess)
    (hi : s.inputs = t.inputs) (hr : s.response = t.response) : s = t := by
  cases s; cases t; simp_all

end Sys2Proof.Machine.State
end

