-- ==== Sys2Proof/Laws/Ops.lean ====
section
/-! SUPPORT. What each shared ending of a meaning can do, said once: it always answers a next state, and this one. -/

namespace Sys2Proof.Machine.State

variable {s t : State} {z : Word} {fl : FlagSet}

/-- The end of a kernel request: the flags are accumulated, the response given, all else kept. -/
theorem finishKernel_eq (s : State) (z : Word) (fl : FlagSet) :
    s.finishKernel z fl =
      .next { flags := s.flags ||| fl, tininess := s.tininess, inputs := s.inputs, response := some ⟨z, fl⟩ } := rfl

theorem finishPattern_eq {n : Nat} (s : State) (r : BitVec n × FlagSet) :
    s.finishPattern r = s.finishKernel (r.1.setWidth 64) r.2 := rfl

theorem finishTruth_eq (s : State) (r : Bool × FlagSet) :
    s.finishTruth r = s.finishKernel (if r.1 then 1 else 0) r.2 := rfl

/-- The end of a control request: no flag returned, the context kept. -/
theorem finishControl_eq (s : State) (z : Word) :
    s.finishControl z =
      .next { flags := s.flags, tininess := s.tininess, inputs := s.inputs, response := some ⟨z, 0#5⟩ } := rfl

/-- Inversion of the end of a kernel request. -/
theorem finishKernel_next (h : s.finishKernel z fl = .next t) :
    t.flags = s.flags ||| fl ∧ t.tininess = s.tininess ∧ t.inputs = s.inputs ∧ t.response = some ⟨z, fl⟩ := by
  rw [finishKernel_eq] at h
  cases h
  exact ⟨rfl, rfl, rfl, rfl⟩

/-- Inversion of the end of a control request. -/
theorem finishControl_next (h : s.finishControl z = .next t) :
    t.flags = s.flags ∧ t.tininess = s.tininess ∧ t.inputs = s.inputs ∧ t.response = some ⟨z, 0#5⟩ := by
  rw [finishControl_eq] at h
  cases h
  exact ⟨rfl, rfl, rfl, rfl⟩

end Sys2Proof.Machine.State
end

