-- ==== Sys2Proof/Laws/PerInstr.lean ====
section
/-! SUPPORT. A law stated of every instruction, one lemma per constructor: the encoder writes a well-formed request
(30_encoding.md R63). -/

namespace Sys2Proof.Laws.EncodeWellFormed

/-- What the encoder writes is well formed. -/
def Statement (i : Instr) : Prop := (encode i).wellFormed = true

theorem kernel_wellFormed (op : BitVec 6) (h : isKernelCode op.toNat = true) (rm : RoundingMode) (exact : Bool)
    (ops : Operands) : (Request.mk (kernelCmd op rm exact) ops).wellFormed = true := by
  have key : ∀ rm exact (op : BitVec 6), isKernelCode op.toNat = true →
      (Request.mk (kernelCmd op rm exact) ⟨0, 0, 0⟩).wellFormed = true := by
    intro rm exact
    cases rm <;> cases exact <;> decide
  exact key rm exact op h

theorem control_wellFormed (op : BitVec 6) (h : isControlCode op.toNat = true) (spare : BitVec 4)
    (ops : Operands) : (Request.mk (controlCmd op spare) ops).wellFormed = true := by
  have key : ∀ (spare : BitVec 4), ∀ op ∈ [0x1D#6, 0x1E#6, 0x1F#6],
      (Request.mk (controlCmd op spare) ⟨0, 0, 0⟩).wellFormed = true := by decide
  have hop : ∀ op : BitVec 6, isControlCode op.toNat = true → op ∈ [0x1D#6, 0x1E#6, 0x1F#6] := by decide
  exact key spare op (hop op h)

theorem f32_add (rm : RoundingMode) (exact : Bool) (ops : Operands) : Statement (.f32_add rm exact ops) :=
  kernel_wellFormed 0x00#6 rfl rm exact ops
theorem f32_sub (rm : RoundingMode) (exact : Bool) (ops : Operands) : Statement (.f32_sub rm exact ops) :=
  kernel_wellFormed 0x01#6 rfl rm exact ops
theorem f32_mul (rm : RoundingMode) (exact : Bool) (ops : Operands) : Statement (.f32_mul rm exact ops) :=
  kernel_wellFormed 0x02#6 rfl rm exact ops
theorem f32_div (rm : RoundingMode) (exact : Bool) (ops : Operands) : Statement (.f32_div rm exact ops) :=
  kernel_wellFormed 0x03#6 rfl rm exact ops
theorem f32_rem (rm : RoundingMode) (exact : Bool) (ops : Operands) : Statement (.f32_rem rm exact ops) :=
  kernel_wellFormed 0x04#6 rfl rm exact ops
theorem f32_sqrt (rm : RoundingMode) (exact : Bool) (ops : Operands) : Statement (.f32_sqrt rm exact ops) :=
  kernel_wellFormed 0x05#6 rfl rm exact ops
theorem f32_mulAdd (rm : RoundingMode) (exact : Bool) (ops : Operands) : Statement (.f32_mulAdd rm exact ops) :=
  kernel_wellFormed 0x06#6 rfl rm exact ops
theorem f32_roundToInt (rm : RoundingMode) (exact : Bool) (ops : Operands) : Statement (.f32_roundToInt rm exact ops) :=
  kernel_wellFormed 0x07#6 rfl rm exact ops
theorem f32_eq (rm : RoundingMode) (exact : Bool) (ops : Operands) : Statement (.f32_eq rm exact ops) :=
  kernel_wellFormed 0x08#6 rfl rm exact ops
theorem f32_le (rm : RoundingMode) (exact : Bool) (ops : Operands) : Statement (.f32_le rm exact ops) :=
  kernel_wellFormed 0x09#6 rfl rm exact ops
theorem f32_lt (rm : RoundingMode) (exact : Bool) (ops : Operands) : Statement (.f32_lt rm exact ops) :=
  kernel_wellFormed 0x0A#6 rfl rm exact ops
theorem f32_eq_signaling (rm : RoundingMode) (exact : Bool) (ops : Operands) : Statement (.f32_eq_signaling rm exact ops) :=
  kernel_wellFormed 0x0B#6 rfl rm exact ops
theorem f32_le_quiet (rm : RoundingMode) (exact : Bool) (ops : Operands) : Statement (.f32_le_quiet rm exact ops) :=
  kernel_wellFormed 0x0C#6 rfl rm exact ops
theorem f32_lt_quiet (rm : RoundingMode) (exact : Bool) (ops : Operands) : Statement (.f32_lt_quiet rm exact ops) :=
  kernel_wellFormed 0x0D#6 rfl rm exact ops
theorem f32_classify (rm : RoundingMode) (exact : Bool) (ops : Operands) : Statement (.f32_classify rm exact ops) :=
  kernel_wellFormed 0x0E#6 rfl rm exact ops
theorem f32_to_ui32 (rm : RoundingMode) (exact : Bool) (ops : Operands) : Statement (.f32_to_ui32 rm exact ops) :=
  kernel_wellFormed 0x10#6 rfl rm exact ops
theorem f32_to_ui64 (rm : RoundingMode) (exact : Bool) (ops : Operands) : Statement (.f32_to_ui64 rm exact ops) :=
  kernel_wellFormed 0x11#6 rfl rm exact ops
theorem f32_to_i32 (rm : RoundingMode) (exact : Bool) (ops : Operands) : Statement (.f32_to_i32 rm exact ops) :=
  kernel_wellFormed 0x12#6 rfl rm exact ops
theorem f32_to_i64 (rm : RoundingMode) (exact : Bool) (ops : Operands) : Statement (.f32_to_i64 rm exact ops) :=
  kernel_wellFormed 0x13#6 rfl rm exact ops
theorem ui32_to_f32 (rm : RoundingMode) (exact : Bool) (ops : Operands) : Statement (.ui32_to_f32 rm exact ops) :=
  kernel_wellFormed 0x14#6 rfl rm exact ops
theorem ui64_to_f32 (rm : RoundingMode) (exact : Bool) (ops : Operands) : Statement (.ui64_to_f32 rm exact ops) :=
  kernel_wellFormed 0x15#6 rfl rm exact ops
theorem i32_to_f32 (rm : RoundingMode) (exact : Bool) (ops : Operands) : Statement (.i32_to_f32 rm exact ops) :=
  kernel_wellFormed 0x16#6 rfl rm exact ops
theorem i64_to_f32 (rm : RoundingMode) (exact : Bool) (ops : Operands) : Statement (.i64_to_f32 rm exact ops) :=
  kernel_wellFormed 0x17#6 rfl rm exact ops
theorem f32_to_f64 (rm : RoundingMode) (exact : Bool) (ops : Operands) : Statement (.f32_to_f64 rm exact ops) :=
  kernel_wellFormed 0x18#6 rfl rm exact ops
theorem ctx_init (spare : BitVec 4) (ops : Operands) : Statement (.ctx_init spare ops) :=
  control_wellFormed 0x1D#6 rfl spare ops
theorem flags_reset (spare : BitVec 4) (ops : Operands) : Statement (.flags_reset spare ops) :=
  control_wellFormed 0x1E#6 rfl spare ops
theorem flags_read (spare : BitVec 4) (ops : Operands) : Statement (.flags_read spare ops) :=
  control_wellFormed 0x1F#6 rfl spare ops
theorem f64_add (rm : RoundingMode) (exact : Bool) (ops : Operands) : Statement (.f64_add rm exact ops) :=
  kernel_wellFormed 0x20#6 rfl rm exact ops
theorem f64_sub (rm : RoundingMode) (exact : Bool) (ops : Operands) : Statement (.f64_sub rm exact ops) :=
  kernel_wellFormed 0x21#6 rfl rm exact ops
theorem f64_mul (rm : RoundingMode) (exact : Bool) (ops : Operands) : Statement (.f64_mul rm exact ops) :=
  kernel_wellFormed 0x22#6 rfl rm exact ops
theorem f64_div (rm : RoundingMode) (exact : Bool) (ops : Operands) : Statement (.f64_div rm exact ops) :=
  kernel_wellFormed 0x23#6 rfl rm exact ops
theorem f64_rem (rm : RoundingMode) (exact : Bool) (ops : Operands) : Statement (.f64_rem rm exact ops) :=
  kernel_wellFormed 0x24#6 rfl rm exact ops
theorem f64_sqrt (rm : RoundingMode) (exact : Bool) (ops : Operands) : Statement (.f64_sqrt rm exact ops) :=
  kernel_wellFormed 0x25#6 rfl rm exact ops
theorem f64_mulAdd (rm : RoundingMode) (exact : Bool) (ops : Operands) : Statement (.f64_mulAdd rm exact ops) :=
  kernel_wellFormed 0x26#6 rfl rm exact ops
theorem f64_roundToInt (rm : RoundingMode) (exact : Bool) (ops : Operands) : Statement (.f64_roundToInt rm exact ops) :=
  kernel_wellFormed 0x27#6 rfl rm exact ops
theorem f64_eq (rm : RoundingMode) (exact : Bool) (ops : Operands) : Statement (.f64_eq rm exact ops) :=
  kernel_wellFormed 0x28#6 rfl rm exact ops
theorem f64_le (rm : RoundingMode) (exact : Bool) (ops : Operands) : Statement (.f64_le rm exact ops) :=
  kernel_wellFormed 0x29#6 rfl rm exact ops
theorem f64_lt (rm : RoundingMode) (exact : Bool) (ops : Operands) : Statement (.f64_lt rm exact ops) :=
  kernel_wellFormed 0x2A#6 rfl rm exact ops
theorem f64_eq_signaling (rm : RoundingMode) (exact : Bool) (ops : Operands) : Statement (.f64_eq_signaling rm exact ops) :=
  kernel_wellFormed 0x2B#6 rfl rm exact ops
theorem f64_le_quiet (rm : RoundingMode) (exact : Bool) (ops : Operands) : Statement (.f64_le_quiet rm exact ops) :=
  kernel_wellFormed 0x2C#6 rfl rm exact ops
theorem f64_lt_quiet (rm : RoundingMode) (exact : Bool) (ops : Operands) : Statement (.f64_lt_quiet rm exact ops) :=
  kernel_wellFormed 0x2D#6 rfl rm exact ops
theorem f64_classify (rm : RoundingMode) (exact : Bool) (ops : Operands) : Statement (.f64_classify rm exact ops) :=
  kernel_wellFormed 0x2E#6 rfl rm exact ops
theorem f64_to_ui32 (rm : RoundingMode) (exact : Bool) (ops : Operands) : Statement (.f64_to_ui32 rm exact ops) :=
  kernel_wellFormed 0x30#6 rfl rm exact ops
theorem f64_to_ui64 (rm : RoundingMode) (exact : Bool) (ops : Operands) : Statement (.f64_to_ui64 rm exact ops) :=
  kernel_wellFormed 0x31#6 rfl rm exact ops
theorem f64_to_i32 (rm : RoundingMode) (exact : Bool) (ops : Operands) : Statement (.f64_to_i32 rm exact ops) :=
  kernel_wellFormed 0x32#6 rfl rm exact ops
theorem f64_to_i64 (rm : RoundingMode) (exact : Bool) (ops : Operands) : Statement (.f64_to_i64 rm exact ops) :=
  kernel_wellFormed 0x33#6 rfl rm exact ops
theorem ui32_to_f64 (rm : RoundingMode) (exact : Bool) (ops : Operands) : Statement (.ui32_to_f64 rm exact ops) :=
  kernel_wellFormed 0x34#6 rfl rm exact ops
theorem ui64_to_f64 (rm : RoundingMode) (exact : Bool) (ops : Operands) : Statement (.ui64_to_f64 rm exact ops) :=
  kernel_wellFormed 0x35#6 rfl rm exact ops
theorem i32_to_f64 (rm : RoundingMode) (exact : Bool) (ops : Operands) : Statement (.i32_to_f64 rm exact ops) :=
  kernel_wellFormed 0x36#6 rfl rm exact ops
theorem i64_to_f64 (rm : RoundingMode) (exact : Bool) (ops : Operands) : Statement (.i64_to_f64 rm exact ops) :=
  kernel_wellFormed 0x37#6 rfl rm exact ops
theorem f64_to_f32 (rm : RoundingMode) (exact : Bool) (ops : Operands) : Statement (.f64_to_f32 rm exact ops) :=
  kernel_wellFormed 0x38#6 rfl rm exact ops

end Sys2Proof.Laws.EncodeWellFormed
end

