-- ==== Sys2Proof/Laws/Rounding.lean ====
section
/-! SUPPORT. The flags the rounding engine can return (43_rounding_engine.md R131, last paragraph), said once for
every caller. -/

namespace Sys2Proof.Machine

/-- The four flag sets of the rounding engine. -/
def EngineFlags (fl : FlagSet) : Prop := fl = noFlags ∨ fl = NX ∨ fl = UF ||| NX ∨ fl = OF ||| NX

theorem roundFinish_flags (fmt : Fmt) (sign : Bool) (exp : Int) (sig : Nat) (rm : RoundingMode) (fl : FlagSet) :
    (roundFinish fmt sign exp sig rm fl).2 = fl ||| flagIf (sig % 2 ^ fmt.g != 0) NX := by
  unfold roundFinish
  dsimp only
  split <;> rfl

theorem roundPack_flags (fmt : Fmt) (sign : Bool) (exp : Int) (sig : Nat) (rm : RoundingMode) (tm : Tininess) :
    EngineFlags (roundPack fmt sign exp sig rm tm).2 := by
  unfold roundPack
  split
  · rw [roundFinish_flags]
    cases isTiny fmt sign exp sig rm tm <;>
      cases (shiftRightJam fmt.k sig (-exp).toNat % 2 ^ fmt.g != 0) <;>
      simp [EngineFlags, flagIf, noFlags, NX, UF, OF]
  · split
    · exact .inr (.inr (.inr rfl))
    · rw [roundFinish_flags]
      cases (sig % 2 ^ fmt.g != 0) <;> simp [EngineFlags, flagIf, noFlags, NX]

theorem roundExact_flags (fmt : Fmt) (sign : Bool) (m : Nat) (sticky : Bool) (e : Int) (rm : RoundingMode)
    (tm : Tininess) : EngineFlags (roundExact fmt sign m sticky e rm tm).2 := roundPack_flags ..

theorem saturate_flags (ity : IntFmt) (v : Int) (inexact exact : Bool) :
    (saturate ity v inexact exact).2 = NV ∨ (saturate ity v inexact exact).2 = flagIf (inexact && exact) NX := by
  unfold saturate
  split
  · exact .inl rfl
  · split
    · exact .inl rfl
    · exact .inr rfl

end Sys2Proof.Machine
end

