-- ==== Sys2Proof/Laws/Shift.lean ====
section
/-! SUPPORT. What the integer functions of the notation compute (00_scope.md R10): bit length and integer square root,
and the range of the shifter. -/

namespace Sys2Proof.Machine

@[simp] theorem bitlen_zero : bitlen 0 = 0 := rfl

theorem bitlen_pos {a : Nat} (h : 0 < a) : bitlen a = Nat.log2 a + 1 := by
  simp [bitlen, Nat.pos_iff_ne_zero.mp h]

/-- A number is below two to its bit length. -/
theorem lt_two_pow_bitlen (a : Nat) : a < 2 ^ bitlen a := by
  by_cases h : a = 0
  · simp [h]
  · simp only [bitlen, h, if_false]
    exact Nat.lt_log2_self

/-- A positive number reaches its leading bit. -/
theorem two_pow_bitlen_le {a : Nat} (h : 0 < a) : 2 ^ (bitlen a - 1) ≤ a := by
  rw [bitlen_pos h, Nat.add_sub_cancel]
  exact Nat.log2_self_le (Nat.pos_iff_ne_zero.mp h)

/-- The loop keeps a root that is not too large and closes the gap above it. -/
theorem isqrtLoop_spec (a : Nat) : ∀ (i r : Nat), r * r ≤ a → a < (r + 2 ^ i) * (r + 2 ^ i) →
    isqrtLoop a i r * isqrtLoop a i r ≤ a ∧ a < (isqrtLoop a i r + 1) * (isqrtLoop a i r + 1)
  | 0, r, hlo, hhi => by simpa [isqrtLoop] using ⟨hlo, hhi⟩
  | i + 1, r, hlo, hhi => by
    simp only [isqrtLoop]
    have hp : 2 ^ (i + 1) = 2 ^ i + 2 ^ i := by rw [pow_succ]; omega
    by_cases hc : (r + 2 ^ i) * (r + 2 ^ i) ≤ a
    · simp only [hc, if_true]
      exact isqrtLoop_spec a i _ hc (by rw [hp] at hhi; simpa [Nat.add_assoc] using hhi)
    · simp only [hc, if_false]
      exact isqrtLoop_spec a i r hlo (Nat.lt_of_not_le hc)

/-- `isqrt a` is the largest root whose square is at most `a`. -/
theorem isqrt_spec (a : Nat) : isqrt a * isqrt a ≤ a ∧ a < (isqrt a + 1) * (isqrt a + 1) := by
  refine isqrtLoop_spec a _ 0 (Nat.zero_le a) ?_
  have h := lt_two_pow_bitlen a
  refine lt_of_lt_of_le h ?_
  rw [Nat.zero_add, ← Nat.pow_add]
  exact Nat.pow_le_pow_right (by decide) (by omega)

@[simp] theorem jamBit_true : jamBit true = 1 := rfl
@[simp] theorem jamBit_false : jamBit false = 0 := rfl

theorem jamBit_le_one (c : Bool) : jamBit c ≤ 1 := by cases c <;> decide

@[simp] theorem shiftRightJam_zero_dist (n a : Nat) : shiftRightJam n a 0 = a := rfl

/-- Past the width only the fact that the input was not zero is left. -/
theorem shiftRightJam_far {n dist : Nat} (a : Nat) (h0 : dist ≠ 0) (hn : n ≤ dist) :
    shiftRightJam n a dist = jamBit (a != 0) := by
  simp [shiftRightJam, h0, hn]

end Sys2Proof.Machine
end

