-- ==== Sys2Proof/Laws/Step.lean ====
section
/-! SUPPORT. Inversion of a step: the four things it can do, and that a decoded instruction always answers a next
state. -/

namespace Sys2Proof.Machine

theorem step_idle {s : State} (h : s.inputs = []) : step s = .next s := by
  simp [step, h, State.idle]

theorem step_reset {s : State} {rest : List HostInput} (h : s.inputs = .reset :: rest) :
    step s = .next (State.afterReset rest) := by
  simp [step, h]

/-- An instruction that has its meaning answers a next state, whatever the state. -/
theorem exec_next_exists (i : Instr) (s : State) : ∃ t, exec i s = .next t := by
  cases i <;> exact ⟨_, rfl⟩

/-- What a step that answers a next state did. -/
theorem step_next_cases {s t : State} (h : step s = .next t) :
    (s.inputs = [] ∧ t = s) ∨
    (∃ rest, s.inputs = .reset :: rest ∧ t = State.afterReset rest) ∨
    (∃ r rest i, s.inputs = .request r :: rest ∧ decode r = .ok i ∧ exec i (s.taking rest) = .next t) := by
  unfold step at h
  split at h
  · next hs => cases h; exact .inl ⟨hs, rfl⟩
  · next rest hs => cases h; exact .inr (.inl ⟨rest, hs, rfl⟩)
  · next r rest hs =>
    split at h
    · next i hd => exact .inr (.inr ⟨r, rest, i, hs, hd, h⟩)
    · cases h

/-- A step never faults. -/
theorem step_not_fault (s : State) (f : Fault) : step s ≠ .fault f := nomatch f

end Sys2Proof.Machine
end

