-- ==== Sys2Proof/Tests/Slice0.lean ====
section
/-! SUPPORT. The model's own tests. Expected values come from the spec: its encoding tables (30_encoding.md), the worked
examples of each request's rule, and its tables of corner cases. The last section gives, for every statement with
hypotheses, concrete inputs that meet them. -/

namespace Sys2Proof.Tests

open Sys2Proof.Machine

/-- A unit with empty `FLAGS` in a tininess mode. -/
def unit (tm : Tininess) : State := ⟨0, tm, [], none⟩

/-- Operand fields with `B` and `C` given only where a request has them. -/
def args (a : Word) (b : Word := 0) (c : Word := 0) : Operands := ⟨a, b, c⟩

/-- The answer of one request to a fresh unit: exactly this response, its flags accumulated, all else kept. -/
def answers (i : Instr) (z : Word) (fl : FlagSet) (tm : Tininess := .after) : Bool :=
  match exec i (unit tm) with
  | .next t => t == ⟨fl, tm, [], some ⟨z, fl⟩⟩
  | _ => false

/-- A request whose step is refused as ill formed, for this reason. -/
def refusedAs (r : Request) (why : IllFormed) : Bool :=
  match step { unit .after with inputs := [.request r] } with
  | .refused w => w == .illFormed why
  | _ => false

/-- A command word that decodes to an instruction, whatever the operand fields hold (tried on one value). -/
def decodesTo (c : CmdWord) (mk : Operands → Instr) : Bool :=
  let ops := args 0x0123456789ABCDEF 0xFEDCBA9876543210 0x8000000000000001
  match decode ⟨c, ops⟩ with
  | .ok i => i == mk ops
  | .error _ => false

/-! ## Ill-formed requests (30_encoding.md R63, R64) -/

theorem test_reserved_bit_refused :
    (Request.mk 0b000001_0_000_000000#16 (args 0)).wellFormed = false ∧
    refusedAs ⟨0b000001_0_000_000000#16, args 0⟩ .reservedBits = true ∧
    refusedAs ⟨0b100000_0_000_011101#16, args 0⟩ .reservedBits = true := by decide

/-- Of the 64 codes exactly those R58 marks reserved are refused. -/
theorem test_unassigned_op_refused :
    (Request.mk 0b000000_0_000_001111#16 (args 0)).wellFormed = false ∧
    ((List.range 64).all fun op =>
      refusedAs ⟨BitVec.ofNat 16 op, args 0⟩ .unassignedOp ==
        (op == 0x0F || op == 0x2F || (0x19 ≤ op && op ≤ 0x1C) || 0x39 ≤ op)) = true := by decide

theorem test_reserved_rounding_mode_refused :
    (Request.mk 0b000000_0_110_000000#16 (args 0)).wellFormed = false ∧
    refusedAs ⟨0b000000_0_110_000000#16, args 0⟩ .reservedRoundingMode = true ∧
    refusedAs ⟨0b000000_0_111_101000#16, args 0⟩ .reservedRoundingMode = true := by decide

/-- The order of the decoder's tests, and a control request with a reserved `rm`, which is well formed (R60). -/
theorem test_decode_order :
    refusedAs ⟨0b000001_0_111_001111#16, args 0⟩ .reservedBits = true ∧
    refusedAs ⟨0b000000_0_111_001111#16, args 0⟩ .unassignedOp = true ∧
    decodesTo 0b000000_0_111_011110#16 (.flags_reset 7) = true := by decide

/-! ## Decoding, a word for every constructor, written from 30_encoding.md R56, R58, R60 -/

theorem test_decode_add_sub :
    decodesTo 0b000000_0_000_000000#16 (.f32_add .rne false) = true ∧
    decodesTo 0b000000_0_000_000001#16 (.f32_sub .rne false) = true ∧
    decodesTo 0b000000_1_101_100000#16 (.f64_add .odd true) = true ∧
    decodesTo 0b000000_0_101_100001#16 (.f64_sub .odd false) = true := by decide

theorem test_decode_mul_fma :
    decodesTo 0b000000_1_000_000010#16 (.f32_mul .rne true) = true ∧
    decodesTo 0b000000_1_000_000110#16 (.f32_mulAdd .rne true) = true ∧
    decodesTo 0b000000_0_101_100010#16 (.f64_mul .odd false) = true ∧
    decodesTo 0b000000_0_101_100110#16 (.f64_mulAdd .odd false) = true := by decide

theorem test_decode_div_rem_sqrt :
    decodesTo 0b000000_1_000_000011#16 (.f32_div .rne true) = true ∧
    decodesTo 0b000000_0_000_000100#16 (.f32_rem .rne false) = true ∧
    decodesTo 0b000000_0_000_000101#16 (.f32_sqrt .rne false) = true ∧
    decodesTo 0b000000_1_101_100011#16 (.f64_div .odd true) = true ∧
    decodesTo 0b000000_1_101_100100#16 (.f64_rem .odd true) = true ∧
    decodesTo 0b000000_0_101_100101#16 (.f64_sqrt .odd false) = true := by decide

theorem test_decode_roundToInt :
    decodesTo 0b000000_1_000_000111#16 (.f32_roundToInt .rne true) = true ∧
    decodesTo 0b000000_1_101_100111#16 (.f64_roundToInt .odd true) = true := by decide

theorem test_decode_compare :
    decodesTo 0b000000_0_000_001000#16 (.f32_eq .rne false) = true ∧
    decodesTo 0b000000_0_000_001001#16 (.f32_le .rne false) = true ∧
    decodesTo 0b000000_1_000_001010#16 (.f32_lt .rne true) = true ∧
    decodesTo 0b000000_1_000_001011#16 (.f32_eq_signaling .rne true) = true ∧
    decodesTo 0b000000_0_000_001100#16 (.f32_le_quiet .rne false) = true ∧
    decodesTo 0b000000_0_000_001101#16 (.f32_lt_quiet .rne false) = true ∧
    decodesTo 0b000000_1_101_101000#16 (.f64_eq .odd true) = true ∧
    decodesTo 0b000000_0_101_101001#16 (.f64_le .odd false) = true ∧
    decodesTo 0b000000_0_101_101010#16 (.f64_lt .odd false) = true ∧
    decodesTo 0b000000_1_101_101011#16 (.f64_eq_signaling .odd true) = true ∧
    decodesTo 0b000000_1_101_101100#16 (.f64_le_quiet .odd true) = true ∧
    decodesTo 0b000000_0_101_101101#16 (.f64_lt_quiet .odd false) = true := by decide

theorem test_decode_classify :
    decodesTo 0b000000_1_000_001110#16 (.f32_classify .rne true) = true ∧
    decodesTo 0b000000_0_101_101110#16 (.f64_classify .odd false) = true := by decide

theorem test_decode_float_to_int :
    decodesTo 0b000000_1_001_010000#16 (.f32_to_ui32 .rtz true) = true ∧
    decodesTo 0b000000_0_001_010001#16 (.f32_to_ui64 .rtz false) = true ∧
    decodesTo 0b000000_0_001_010010#16 (.f32_to_i32 .rtz false) = true ∧
    decodesTo 0b000000_1_001_010011#16 (.f32_to_i64 .rtz true) = true ∧
    decodesTo 0b000000_1_000_110000#16 (.f64_to_ui32 .rne true) = true ∧
    decodesTo 0b000000_1_000_110001#16 (.f64_to_ui64 .rne true) = true ∧
    decodesTo 0b000000_0_000_110010#16 (.f64_to_i32 .rne false) = true ∧
    decodesTo 0b000000_0_000_110011#16 (.f64_to_i64 .rne false) = true := by decide

theorem test_decode_int_to_float :
    decodesTo 0b000000_1_001_010100#16 (.ui32_to_f32 .rtz true) = true ∧
    decodesTo 0b000000_0_001_010101#16 (.ui64_to_f32 .rtz false) = true ∧
    decodesTo 0b000000_0_001_010110#16 (.i32_to_f32 .rtz false) = true ∧
    decodesTo 0b000000_1_001_010111#16 (.i64_to_f32 .rtz true) = true ∧
    decodesTo 0b000000_1_000_110100#16 (.ui32_to_f64 .rne true) = true ∧
    decodesTo 0b000000_1_000_110101#16 (.ui64_to_f64 .rne true) = true ∧
    decodesTo 0b000000_0_000_110110#16 (.i32_to_f64 .rne false) = true ∧
    decodesTo 0b000000_0_000_110111#16 (.i64_to_f64 .rne false) = true := by decide

theorem test_decode_float_to_float :
    decodesTo 0b000000_1_001_011000#16 (.f32_to_f64 .rtz true) = true ∧
    decodesTo 0b000000_1_000_111000#16 (.f64_to_f32 .rne true) = true := by decide

theorem test_decode_control :
    decodesTo 0b000000_0_000_011101#16 (.ctx_init 0) = true ∧
    decodesTo 0b000000_1_011_011110#16 (.flags_reset 11) = true ∧
    decodesTo 0b000000_0_110_011111#16 (.flags_read 6) = true := by decide

/-- Every rounding-mode code (R60), on one request. -/
theorem test_decode_rounding_modes :
    ([(0, .rne), (1, .rtz), (2, .rdn), (3, .rup), (4, .rmm), (5, .odd)].all fun (p : Nat × RoundingMode) =>
      decodesTo (BitVec.ofNat 16 (p.1 * 64)) (.f32_add p.2 false)) = true := by decide

/-- The examples of the assembler syntax (R65). -/
theorem test_assemble_examples :
    assemble (.kernel 0x00#6 (some .rne) false [0x00F53CBE, 0x00D3CB86]) =
      ⟨0x0000#16, args 0x00F53CBE 0x00D3CB86 0⟩ ∧
    assemble (.kernel 0x32#6 (some .rdn) true [0xC004000000000000]) = ⟨0x02B2#16, args 0xC004000000000000⟩ ∧
    assemble (.ctxInit false) = ⟨0x001D#16, args 0⟩ ∧ assemble (.ctxInit true) = ⟨0x001D#16, args 1⟩ ∧
    assemble .flagsReset = ⟨0x001E#16, args 0⟩ ∧ assemble .flagsRead = ⟨0x001F#16, args 0⟩ := by decide

theorem test_assemble_text :
    assembleLine "f32_add.near_even 00F53CBE 00D3CB86" = some ⟨0x0000#16, args 0x00F53CBE 0x00D3CB86⟩ ∧
    assembleLine "f64_to_i32.min.exact C004000000000000" = some ⟨0x02B2#16, args 0xC004000000000000⟩ ∧
    assembleLine "f32_roundToInt.near_even.exact 40200000" = some ⟨0x0207#16, args 0x40200000⟩ ∧
    assembleLine "ctx_init before" = some ⟨0x001D#16, args 0⟩ ∧ assembleLine "flags_read" = some ⟨0x001F#16, args 0⟩ ∧
    assembleLine "f32_add 00F53CBE" = none ∧ assembleLine "f64_sqrt 40800000" = none := by decide +kernel

/-- The host's numbering of a request: the command word first, then the operand fields. -/
theorem test_decodeTableWord :
    decodeTableWord 16 0x0000 = some (.f32_add .rne false (args 0)) ∧
    decodeTableWord 16 0x02B2 = some (.f64_to_i32 .rdn true (args 0)) ∧
    decodeTableWord 16 0x000F = none := by decide

theorem test_withFetchWord_runs_first :
    (match step (State.reset.withFetchWord 16 0x0016) with
      | .next t => t == ⟨0, .after, [], some ⟨0, 0⟩⟩
      | _ => false) = true := by decide +kernel

/-! ## The codec, the shifter, the normaliser and the rounding engine: the spec's examples -/

theorem test_extraction :
    signOf .f64 0xC1D00003FFF3FFFD#64 = true ∧ expOf .f64 0xC1D00003FFF3FFFD#64 = 0x41D ∧
    fracOf .f64 0xC1D00003FFF3FFFD#64 = 0x00003FFF3FFFD ∧
    signOf .f32 0x00F53CBE#32 = false ∧ expOf .f32 0x00F53CBE#32 = 1 ∧ fracOf .f32 0x00F53CBE#32 = 0x753CBE := by decide

theorem test_pack :
    pack .f32 false 126 0x800000 = 0x3F800000#32 ∧ maxFinPat .f32 false = 0x7F7FFFFF#32 ∧
    maxFinPat .f64 true = 0xFFEFFFFFFFFFFFFF#64 ∧ cnan .f32 = 0x7FC00000#32 ∧ cnan .f64 = 0x7FF8000000000000#64 ∧
    negPat .f32 0x7FC00001#32 = 0xFFC00001#32 ∧ absPat .f64 0xFFF0000000000000#64 = 0x7FF0000000000000#64 ∧
    setSign .f32 0x3F800000#32 true = 0xBF800000#32 := by decide

theorem test_nan_tests :
    ([0x7FC00000#32, 0xFFC00000#32, 0x7F800001#32, 0x7FFFFFFF#32].all (isNaN .f32)) = true ∧
    ([0x7F800000#32, 0xFF800000#32].any (isNaN .f32)) = false ∧
    ([0x7F800001#32, 0x7FBFFFFF#32, 0xFFA00000#32].all (isSigNaN .f32)) = true ∧
    ([0x7FC00000#32, 0x7FC00001#32, 0xFFFFFFFF#32].all (isQuietNaN .f32)) = true := by decide

theorem test_jam :
    shiftRightJam 32 0x80000001 1 = 0x40000001 ∧ shiftRightJam 32 0x80000001 31 = 1 ∧
    shiftRightJam 32 0x80000001 32 = 1 ∧ shiftRightJam 32 0x10 4 = 1 ∧ shiftRightJam 32 0x18 4 = 1 ∧
    shiftRightJam 32 0x17 3 = 3 ∧ shiftRightJam 64 1 200 = 1 ∧ shiftRightJam 64 0 200 = 0 := by decide

theorem test_jam_extra :
    shiftRightJam64Extra 3 0 1 = (1, 0x8000000000000000) ∧ shiftRightJam64Extra 5 0 2 = (1, 0x4000000000000000) ∧
    shiftRightJam64Extra 5 7 2 = (1, 0x4000000000000001) ∧
    shiftRightJam64Extra 0x8000000000000000 0 64 = (0, 0x8000000000000000) ∧
    shiftRightJam64Extra 0x8000000000000000 0 65 = (0, 1) := by decide

theorem test_wide :
    mul64To128 0xFFFFFFFFFFFFFFFF#64 0xFFFFFFFFFFFFFFFF#64 = ⟨0xFFFFFFFFFFFFFFFE#64, 1#64⟩ ∧
    add128 ⟨0, 0xFFFFFFFFFFFFFFFF#64⟩ ⟨0, 1⟩ = ⟨1, 0⟩ ∧ sub128 ⟨1, 0⟩ ⟨0, 1⟩ = ⟨0, 0xFFFFFFFFFFFFFFFF#64⟩ := by decide

theorem test_clz : clz 32 1 = 31 ∧ clz 32 0x00800000 = 8 ∧ clz 64 0x0010000000000000 = 11 := by decide +kernel

theorem test_normSubnormalSig :
    normSubnormalSig .f32 1 = some (-22, 0x800000) ∧ normSubnormalSig .f32 0x7FFFFF = some (0, 0xFFFFFE) ∧
    normSubnormalSig .f64 1 = some (-51, 0x10000000000000) ∧ normSubnormalSig .f64 0 = none := by decide +kernel

theorem test_normRoundPack :
    normRoundPack .f32 false 0x9C 1 .rne .after = (0x3F800000#32, 0) ∧
    normRoundPack .f32 true 0x9C 0x7FFFFFFF .rtz .after = (0xCEFFFFFF#32, NX) ∧
    normRoundPack .f32 false 5 0x400 .odd .after = (0x00000100#32, 0) ∧
    normRoundPack .f32 false 0xFE 0x40000000 .rtz .after = (0x7F7FFFFF#32, OF ||| NX) := by decide +kernel

/-- Rows of 43_rounding_engine.md R140, among them the two in which the tininess mode matters. -/
theorem test_roundPack :
    roundPack .f32 false 0x7E 0x400000C0 .rne .after = (0x3F800002#32, NX) ∧
    roundPack .f32 true 0x7E 0x40000001 .rdn .after = (0xBF800001#32, NX) ∧
    roundPack .f32 false 0xFD 0x7FFFFFBF .rup .after = (0x7F800000#32, OF ||| NX) ∧
    roundPack .f32 false (-40) 0x40000000 .odd .after = (0x00000001#32, UF ||| NX) ∧
    roundPack .f32 false (-1) 0x7FFFFFC0 .rne .before = (0x00800000#32, UF ||| NX) ∧
    roundPack .f32 false (-1) 0x7FFFFFC0 .rne .after = (0x00800000#32, NX) ∧
    roundPack .f64 true 0x7FD 0x7FFFFFFFFFFFFE00 .rup .after = (0xFFEFFFFFFFFFFFFF#64, NX) := by decide +kernel

/-- Rows of 43_rounding_engine.md R141, and the mode's other reading. -/
theorem test_roundIntMag :
    roundIntMag config false 5 (-1) .rne = (2, true) ∧ roundIntMag config true 5 (-1) .rdn = (3, true) ∧
    roundIntMag config false 7 (-1) .odd = (3, true) ∧ roundIntMag config false 1 (-2) .rup = (1, true) ∧
    roundIntMag config false 6 (-1) .odd = (3, false) ∧ roundIntMag config false 3 2 .rne = (12, false) ∧
    roundIntMag { config with oddToInt := .jam } false 5 (-1) .odd = (3, true) := by decide

/-- The document's fifth vector (R139). -/
theorem test_roundToUI32 : roundToUI32 config false 36028801313931264 .rne true = (0xFFFFFFFF#32, NV) := by
  decide +kernel

/-! ## One request, one step: the worked example of each request's rule -/

theorem test_add_sub_examples :
    answers (.f32_add .rne false (args 0x00F53CBE 0x00D3CB86)) 0x01648422 0x00 = true ∧
    answers (.f32_add .rdn false (args 0x3F800000 0xBF800000)) 0x80000000 0x00 = true ∧
    answers (.f32_add .rup true (args 0xFFFFFFFF3F800000 0x1234567800000001)) 0x3F800001 0x01 = true ∧
    answers (.f32_sub .odd false (args 0x3F800000 0x3F7FFFFF)) 0x33800000 0x00 = true ∧
    answers (.f32_sub .rne false (args 0x7F800000 0x7F800000)) 0x7FC00000 0x10 = true ∧
    answers (.f32_sub .rup false (args 0xFF7FFFFF 0x7F7FFFFF)) 0xFF7FFFFF 0x05 = true ∧
    answers (.f64_add .rne false (args 0x3FF0000000000000 0x3CA0000000000000)) 0x3FF0000000000000 0x01 = true ∧
    answers (.f64_add .rmm false (args 0x3FF0000000000000 0x3CA0000000000000)) 0x3FF0000000000001 0x01 = true ∧
    answers (.f64_sub .rne false (args 0x3FF0000000000000 0x3C90000000000000)) 0x3FF0000000000000 0x01 = true ∧
    answers (.f64_sub .rtz false (args 0x3FF0000000000000 0x3C90000000000000)) 0x3FEFFFFFFFFFFFFF 0x01 = true := by decide +kernel

/-- 45_add_sub.md R181, R182: the hidden bit of the smaller operand stands at `2^(k-3)` for `addMags` and at `2^(k-2)` for
`subMags` (the power first, then the shift); 1 + 0.25 is 1.25 and 1 - 0.25 is 0.75. -/
theorem test_add_sub_datapath_hidden_bit :
    alignedFrac .f32 6 0x3E800000#32 = 2 ^ 29 ∧ alignedFrac .f32 7 0x3E800000#32 = 2 ^ 30 ∧
    alignedFrac .f64 9 0x3FD0000000000000#64 = 2 ^ 61 ∧ alignedFrac .f64 10 0x3FD0000000000000#64 = 2 ^ 62 ∧
    addSubDatapath .f32 false 0x3F800000#32 0x3E800000#32 .rne .after = (0x3FA00000#32, 0) ∧
    addSubDatapath .f32 true 0x3F800000#32 0x3E800000#32 .rne .after = (0x3F400000#32, 0) := by decide +kernel

theorem test_mul_fma_examples :
    answers (.f32_mul .rmm false (args 0x3F800001 0x3F800001)) 0x3F800002 0x01 = true ∧
    answers (.f32_mul .rne false (args 0x1F876CE2 0x2071F6AF)) 0x00800000 0x03 .before = true ∧
    answers (.f32_mul .rne false (args 0x1F876CE2 0x2071F6AF)) 0x00800000 0x01 .after = true ∧
    answers (.f64_mul .rne false (args 0x3FF8000000000000 0xBFF8000000000000)) 0xC002000000000000 0x00 = true ∧
    answers (.f64_mul .odd false (args 0x7FEFFFFFFFFFFFFF 0x4000000000000000)) 0x7FEFFFFFFFFFFFFF 0x05 = true ∧
    answers (.f32_mulAdd .rne false (args 0x3F800001 0x3F800001 0xBF800002)) 0x28800000 0x00 = true ∧
    answers (.f32_mulAdd .rdn false (args 0x00000000 0x3F800000 0x80000000)) 0x80000000 0x00 = true ∧
    answers (.f32_mulAdd .rne false (args 0x00000000 0x7F800000 0x7FC00000)) 0x7FC00000 0x10 = true ∧
    answers (.f64_mulAdd .rne false (args 0x41E00003FFFBFFFF 0xBFDFFFFFFFEFFFFF 0x80251295103185AE)) 0xC1D00003FFF3FFFD 0x01 .before = true ∧
    answers (.f64_mulAdd .rup false (args 0x41E00003FFFBFFFF 0xBFDFFFFFFFEFFFFF 0x80251295103185AE)) 0xC1D00003FFF3FFFC 0x01 = true := by decide +kernel

theorem test_div_rem_sqrt_examples :
    answers (.f32_div .rne false (args 0x3F800000 0x40400000)) 0x3EAAAAAB 0x01 = true ∧
    answers (.f32_div .rne false (args 0xBF800000 0x00000000)) 0xFF800000 0x08 = true ∧
    answers (.f32_div .rup false (args 0x007FFFFF 0x3F7FFFFF)) 0x00800000 0x03 = true ∧
    answers (.f64_div .rne false (args 0x50E0100000001000 0x3CA0000000000000)) 0x5430100000001000 0x00 .before = true ∧
    answers (.f64_div .rup false (args 0x3FF0000000000000 0x4008000000000000)) 0x3FD5555555555556 0x01 = true ∧
    answers (.f32_rem .rne false (args 0x40A00000 0x40400000)) 0xBF800000 0x00 = true ∧
    answers (.f32_rem .rup false (args 0xC0800000 0x40000000)) 0x80000000 0x00 = true ∧
    answers (.f64_rem .rne false (args 0x4004000000000000 0x3FF0000000000000)) 0x3FE0000000000000 0x00 = true ∧
    answers (.f64_rem .rne false (args 0xC014000000000000 0x4008000000000000)) 0x3FF0000000000000 0x00 = true ∧
    answers (.f32_sqrt .rne false (args 0x40000000)) 0x3FB504F3 0x01 = true ∧
    answers (.f32_sqrt .rup false (args 0x00000001)) 0x1A3504F4 0x01 = true ∧
    answers (.f32_sqrt .rne false (args 0x80000000)) 0x80000000 0x00 = true ∧
    answers (.f64_sqrt .rmm false (args 0x4000000000000000)) 0x3FF6A09E667F3BCD 0x01 = true ∧
    answers (.f64_sqrt .rne false (args 0xBFF0000000000000)) 0x7FF8000000000000 0x10 = true := by decide +kernel

theorem test_roundToInt_examples :
    answers (.f32_roundToInt .rne true (args 0x40200000)) 0x40000000 0x01 = true ∧
    answers (.f32_roundToInt .rne false (args 0x40200000)) 0x40000000 0x00 = true ∧
    answers (.f32_roundToInt .rtz true (args 0xBE800000)) 0x80000000 0x01 = true ∧
    answers (.f64_roundToInt .rdn true (args 0xC00C000000000000)) 0xC010000000000000 0x01 = true ∧
    answers (.f64_roundToInt .odd true (args 0x4004000000000000)) 0x4000000000000000 0x01 = true := by decide +kernel

theorem test_compare_examples :
    answers (.f32_eq .rne false (args 0x00000000 0x80000000)) 0x1 0x00 = true ∧
    answers (.f32_eq .rne false (args 0x7FC00000 0x7FC00000)) 0x0 0x00 = true ∧
    answers (.f32_eq .rne false (args 0x7F800001 0x3F800000)) 0x0 0x10 = true ∧
    answers (.f32_le .rne false (args 0x3F800000 0x40000000)) 0x1 0x00 = true ∧
    answers (.f32_le .rne false (args 0x7FC00000 0x3F800000)) 0x0 0x10 = true ∧
    answers (.f32_lt .rne false (args 0x80000001 0x00000000)) 0x1 0x00 = true ∧
    answers (.f32_lt .rne false (args 0x80000000 0x00000000)) 0x0 0x00 = true ∧
    answers (.f32_eq_signaling .rne false (args 0x3F800000 0x7FC00000)) 0x0 0x10 = true ∧
    answers (.f32_eq_signaling .rne false (args 0x3F800000 0x3F800000)) 0x1 0x00 = true ∧
    answers (.f32_le_quiet .rne false (args 0x7FC00000 0x3F800000)) 0x0 0x00 = true ∧
    answers (.f32_le_quiet .rne false (args 0x7FC00000 0x7F800001)) 0x0 0x10 = true ∧
    answers (.f32_le_quiet .rne false (args 0xBF800000 0x3F800000)) 0x1 0x00 = true ∧
    answers (.f32_lt_quiet .rne false (args 0xFF800000 0x7F800000)) 0x1 0x00 = true ∧
    answers (.f32_lt_quiet .rne false (args 0xBF800000 0xC0000000)) 0x0 0x00 = true ∧
    answers (.f64_eq .rne false (args 0x0000000000000000 0x8000000000000000)) 0x1 0x00 = true ∧
    answers (.f64_eq .rne false (args 0x7FF0000000000001 0x0000000000000000)) 0x0 0x10 = true ∧
    answers (.f64_le .rne false (args 0xFFF0000000000000 0xFFEFFFFFFFFFFFFF)) 0x1 0x00 = true ∧
    answers (.f64_le .rne false (args 0x7FF8000000000000 0x0000000000000000)) 0x0 0x10 = true ∧
    answers (.f64_lt .rne false (args 0x3FF0000000000000 0x4000000000000000)) 0x1 0x00 = true ∧
    answers (.f64_lt .rne false (args 0xBFF0000000000000 0xBFF0000000000000)) 0x0 0x00 = true ∧
    answers (.f64_eq_signaling .rne false (args 0x7FF8000000000000 0x0000000000000000)) 0x0 0x10 = true ∧
    answers (.f64_le_quiet .rne false (args 0x7FF8000000000000 0x0000000000000000)) 0x0 0x00 = true ∧
    answers (.f64_lt_quiet .rne false (args 0x7FF0000000000001 0x0000000000000000)) 0x0 0x10 = true := by decide +kernel

theorem test_classify_examples :
    answers (.f32_classify .rne false (args 0x807FFFFF)) 0x004 0x00 = true ∧
    answers (.f32_classify .rne false (args 0x7F800001)) 0x100 0x00 = true ∧
    answers (.f64_classify .rne false (args 0x000FFFFFFFFFFFFF)) 0x020 0x00 = true ∧
    answers (.f64_classify .rne false (args 0xFFFFFFFFFFFFFFFF)) 0x200 0x00 = true := by decide +kernel

theorem test_float_to_int_examples :
    answers (.f32_to_ui32 .rne true (args 0x55000001)) 0xFFFFFFFF 0x10 = true ∧
    answers (.f32_to_ui32 .rdn true (args 0xBF000000)) 0x0 0x10 = true ∧
    answers (.f32_to_ui32 .rne true (args 0xBF000000)) 0x0 0x01 = true ∧
    answers (.f32_to_ui64 .rne false (args 0x55000001)) 0x0000080000100000 0x00 = true ∧
    answers (.f32_to_ui64 .rne false (args 0x5F800000)) 0xFFFFFFFFFFFFFFFF 0x10 = true ∧
    answers (.f32_to_i32 .rdn true (args 0xC0200000)) 0x00000000FFFFFFFD 0x01 = true ∧
    answers (.f32_to_i32 .rne false (args 0x4F000000)) 0x000000007FFFFFFF 0x10 = true ∧
    answers (.f32_to_i64 .rne false (args 0xCF000001)) 0xFFFFFFFF7FFFFF00 0x00 = true ∧
    answers (.f32_to_i64 .rne false (args 0xDF000001)) 0x8000000000000000 0x10 = true ∧
    answers (.f64_to_ui32 .rne true (args 0x41EFFFFFFFF00000)) 0xFFFFFFFF 0x10 = true ∧
    answers (.f64_to_ui32 .rtz true (args 0x41EFFFFFFFF00000)) 0xFFFFFFFF 0x01 = true ∧
    answers (.f64_to_ui64 .rne false (args 0x43EFFFFFFFFFFFFF)) 0xFFFFFFFFFFFFF800 0x00 = true ∧
    answers (.f64_to_ui64 .rne false (args 0x43F0000000000000)) 0xFFFFFFFFFFFFFFFF 0x10 = true ∧
    answers (.f64_to_i32 .rdn true (args 0xC004000000000000)) 0x00000000FFFFFFFD 0x01 = true ∧
    answers (.f64_to_i32 .rmm true (args 0xC1E0000000100000)) 0x80000000 0x10 = true ∧
    answers (.f64_to_i64 .rne false (args 0xC3E0000000000000)) 0x8000000000000000 0x00 = true ∧
    answers (.f64_to_i64 .rne false (args 0x43E0000000000000)) 0x7FFFFFFFFFFFFFFF 0x10 = true := by decide +kernel

/-- 49_convert.md R251, R272: in the datapaths a NaN of either sign gives the NaN sentinel, an infinity the largest or
least integer. -/
theorem test_float_to_int_datapaths_special :
    floatToInt32Datapath config .f32 .i32 0xFFC00000#32 .rne true = (0x7FFFFFFF#32, NV) ∧
    floatToInt32Datapath config .f64 .ui32 0xFFF0000000000001#64 .rdn true = (0xFFFFFFFF#32, NV) ∧
    floatToInt32Datapath config .f64 .i32 0xFFF0000000000000#64 .rne true = (0x80000000#32, NV) ∧
    floatToInt64Datapath config .f32 .ui64 0xFF800001#32 .rtz true = (0xFFFFFFFFFFFFFFFF#64, NV) ∧
    floatToInt64Datapath config .f64 .i64 0xFFF8000000000000#64 .rup false = (0x7FFFFFFFFFFFFFFF#64, NV) ∧
    floatToInt64Datapath config .f32 .ui64 0xFF800000#32 .rne true = (0x0000000000000000#64, NV) := by decide +kernel

theorem test_int_to_float_examples :
    answers (.ui32_to_f32 .rne false (args 0xFF7FFF02)) 0x4F7F7FFF 0x01 = true ∧
    answers (.ui32_to_f32 .rup false (args 0xFF7FFF02)) 0x4F7F8000 0x01 = true ∧
    answers (.ui64_to_f32 .rne false (args 0xFFFFFFFFFFFFFFFF)) 0x5F800000 0x01 = true ∧
    answers (.ui64_to_f32 .odd false (args 0xFFFFFFFFFFFFFFFF)) 0x5F7FFFFF 0x01 = true ∧
    answers (.i32_to_f32 .rne false (args 0x80000000)) 0xCF000000 0x00 = true ∧
    answers (.i32_to_f32 .rup false (args 0x80000001)) 0xCEFFFFFF 0x01 = true ∧
    answers (.i64_to_f32 .rne false (args 0xFFFFFFFFFFFFFFFF)) 0xBF800000 0x00 = true ∧
    answers (.i64_to_f32 .rmm false (args 0x7FFFFFFFFFFFFFFF)) 0x5F000000 0x01 = true ∧
    answers (.ui32_to_f64 .rne false (args 0xFFFFFFFF)) 0x41EFFFFFFFE00000 0x00 = true ∧
    answers (.ui32_to_f64 .rup false (args 0xABCDEF01FF7FFF02)) 0x41EFEFFFE0400000 0x00 = true ∧
    answers (.ui64_to_f64 .rtz false (args 0x0020000000000001)) 0x4340000000000000 0x01 = true ∧
    answers (.ui64_to_f64 .odd false (args 0x0020000000000001)) 0x4340000000000001 0x01 = true ∧
    answers (.i32_to_f64 .rne false (args 0x80000000)) 0xC1E0000000000000 0x00 = true ∧
    answers (.i32_to_f64 .rne false (args 0x7FFFFFFF)) 0x41DFFFFFFFC00000 0x00 = true ∧
    answers (.i64_to_f64 .rne false (args 0x8000000000000000)) 0xC3E0000000000000 0x00 = true ∧
    answers (.i64_to_f64 .rtz false (args 0x8000000000000001)) 0xC3DFFFFFFFFFFFFF 0x01 = true := by decide +kernel

theorem test_float_to_float_examples :
    answers (.f32_to_f64 .rne false (args 0x00000001)) 0x36A0000000000000 0x00 = true ∧
    answers (.f32_to_f64 .rne false (args 0xFFBFFFFF)) 0x7FF8000000000000 0x10 = true ∧
    answers (.f64_to_f32 .rne false (args 0x400921FB54442D18)) 0x40490FDB 0x01 = true ∧
    answers (.f64_to_f32 .rtz false (args 0x380FFFFFFFFFFFFF)) 0x007FFFFF 0x03 = true ∧
    answers (.f64_to_f32 .rne false (args 0x380FFFFFFFFFFFFF)) 0x00800000 0x03 .before = true := by decide +kernel

theorem test_ctx_init :
    exec (.ctx_init 0 (args 0)) ⟨0x1F, .after, [], none⟩ = .next ⟨0, .before, [], some ⟨0, 0⟩⟩ ∧
    exec (.ctx_init 15 (args 0xFFFFFFFFFFFFFFFF)) ⟨0x1F, .after, [], none⟩ = .next ⟨0, .after, [], some ⟨0, 0⟩⟩ :=
  ⟨rfl, rfl⟩

theorem test_flags_reset :
    exec (.flags_reset 0 (args 0)) ⟨0x05, .before, [], none⟩ = .next ⟨0, .before, [], some ⟨0, 0⟩⟩ := rfl

theorem test_flags_read :
    exec (.flags_read 0 (args 0)) ⟨0x11, .after, [], none⟩ = .next ⟨0x11, .after, [], some ⟨0x11, 0⟩⟩ := rfl

/-- A kernel request adds to the flags already there. -/
theorem test_flags_accumulate :
    exec (.f32_div .rne false (args 0x3F800000 0)) ⟨0x11, .after, [], none⟩ =
      .next ⟨0x19, .after, [], some ⟨0x7F800000, 0x08⟩⟩ := rfl

/-! ## Witnesses: concrete inputs that meet the hypotheses of the statements, clause by clause -/

/-- A state with one pending request before an assertion of reset. -/
def pending (cmd : CmdWord) (ops : Operands) : State :=
  { unit .before with flags := 0x03, inputs := [.request ⟨cmd, ops⟩, .reset] }

/-- EncodeInvertsDecode, StepRunsDecodedInstruction, RefusedExactlyWhenIllFormed (both sides). -/
theorem witness_request_at_head :
    (pending 0x02B2#16 (args 0xC004000000000000)).inputs =
      .request ⟨0x02B2#16, args 0xC004000000000000⟩ :: [.reset] ∧
    decode ⟨0x02B2#16, args 0xC004000000000000⟩ = .ok (.f64_to_i32 .rdn true (args 0xC004000000000000)) ∧
    (Request.mk 0x02B2#16 (args 0)).wellFormed = true ∧ (Request.mk 0x0180#16 (args 0)).wellFormed = false :=
  ⟨rfl, rfl, rfl, rfl⟩

/-- ResetFromAnyState and IdleStepKeepsState. -/
theorem witness_reset_and_idle :
    ({ unit .before with flags := 0x1F, inputs := [.reset] } : State).inputs = .reset :: [] ∧
    (args 1).a.getLsbD 0 = true ∧ (unit .before).inputs = [] := by decide

/-- KernelRequestOnlyMergesFlags, FlagsAccumulate, TininessWrittenOnlyByCtxInit: a kernel request; the three ways to
clear a flag; the two ways to change the tininess mode. -/
theorem witness_flag_and_mode_writers :
    isKernel (.f32_eq .rne false (args 0)) = true ∧ isKernel (.flags_read 0 (args 0)) = false ∧
    (match step (pending 0x001D#16 (args 1)) with
      | .next t => !t.flags.getLsbD 0 && t.tininess == .after
      | _ => false) = true ∧
    (match step (pending 0x001E#16 (args 0)) with
      | .next t => !t.flags.getLsbD 1 && t.tininess == .before
      | _ => false) = true ∧
    (match step { unit .before with flags := 0x03, inputs := [.reset] } with
      | .next t => !t.flags.getLsbD 0 && t.tininess == .after
      | _ => false) = true ∧ (pending 0 (args 0)).flags.getLsbD 0 = true ∧
    (pending 0 (args 0)).flags.getLsbD 1 = true := by decide

/-- RunOfKernelRequestsAccumulates: two kernel requests before a later input. -/
theorem witness_run :
    let rs : List Request := [⟨0x0003#16, args 0x3F800000 0⟩, ⟨0x0005#16, args 0xBF800000⟩]
    (∀ r ∈ rs, ∃ i, decode r = .ok i ∧ isKernel i = true) ∧
    ({ unit .after with inputs := rs.map HostInput.request ++ [.reset] } : State).inputs =
      rs.map HostInput.request ++ [.reset] ∧
    (rs.map (flagsOf .after)) = [0x08, 0x10] := by
  refine ⟨?_, rfl, by decide +kernel⟩
  intro r hr
  simp only [List.mem_cons, List.not_mem_nil, or_false] at hr
  rcases hr with rfl | rfl
  · exact ⟨.f32_div .rne false (args 0x3F800000 0), rfl, rfl⟩
  · exact ⟨.f32_sqrt .rne false (args 0xBF800000), rfl, rfl⟩

/-- CtxInit and FlagsReset, second clauses. -/
theorem witness_control_clauses :
    (match exec (.ctx_init 0 (args 0)) { unit .after with flags := 0x1F } with
      | .next t => t.tininess != .after
      | _ => false) = true ∧
    (match exec (.flags_reset 0 (args 0)) { unit .after with flags := 0x10 } with
      | .next t => !t.flags.getLsbD 4
      | _ => false) = true := by decide

/-- WellFormedRequestsComplete and StepKeepsFlagsConsistent: a safe, consistent state that is not the reset state. -/
theorem witness_safe_and_consistent :
    (pending 0x0000#16 (args 0x7F7FFFFF 0x7F7FFFFF)).safe = true ∧
    FlagsConsistent { pending 0x0000#16 (args 0x7F7FFFFF 0x7F7FFFFF) with response := some ⟨0, UF ||| NX⟩ } ∧
    ∃ t, step { pending 0x0000#16 (args 0x7F7FFFFF 0x7F7FFFFF) with response := some ⟨0, UF ||| NX⟩ } = .next t := by
  refine ⟨by decide, ⟨by decide, by decide, ?_⟩, ⟨_, rfl⟩⟩
  intro p hp
  cases hp
  decide

/-- PackInvertsExtraction at the ends of its ranges. -/
theorem witness_pack_range : (255 ≤ Fmt.f32.expMax ∧ 2 ^ 23 - 1 < 2 ^ Fmt.f32.t) ∧ 0 ≤ Fmt.f64.expMax := by decide

/-- JamLaws and ExtraWordReadsLostBits: at and past the width, and at a tie. -/
theorem witness_shifts :
    (0xFF < 2 ^ 8 ∧ 0x80 ≤ 0xFF ∧ 1 ≤ 1 ∧ 7 < 8) ∧ (shiftRightJam 8 0x80 7 = 1 ∧ shiftRightJam 8 0x80 8 = 1) ∧
    (0xC000000000000000 < 2 ^ 64 ∧ 1 ≤ 64 ∧ 2 ^ 63 < (shiftRightJam64Extra 0xC000000000000000 0 64).2) := by decide

/-- SubnormalNormalisationKeepsValue and NormRoundPackIsRoundExact at the ends of their ranges. -/
theorem witness_normaliser :
    (0 < 1 ∧ 1 < 2 ^ Fmt.f32.t ∧ 2 ^ 52 - 1 < 2 ^ Fmt.f64.t) ∧
    (0 < 2 ^ 31 - 1 ∧ 2 ^ 31 - 1 < 2 ^ (Fmt.f32.k - 1)) := by decide

/-- RoundExactIsCorrectRounding over the rationals: an exact magnitude, and one strictly between two. -/
theorem witness_roundExact :
    (0 < 1 ∧ (1 : ℚ) = ((1 : ℕ) : ℚ) * 2 ^ (0 : ℤ)) ∧
    (((2 ^ 30 : ℕ) : ℚ) * 2 ^ (0 : ℤ) < 2 ^ 30 + 1 / 2 ∧ (2 ^ 30 : ℚ) + 1 / 2 < (((2 ^ 30 : ℕ) : ℚ) + 1) * 2 ^ (0 : ℤ) ∧
      Fmt.f32.k - 1 ≤ bitlen (2 ^ 30)) := by
  refine ⟨⟨by norm_num, by norm_num⟩, by norm_num, by norm_num, by decide +kernel⟩

/-- NaNOperands, InvalidOperations, InfinityArithmetic, DivisionByZero: the classes their clauses are about, on
patterns of both formats. -/
theorem witness_special_operands :
    isNaN .f32 0x7FC00000#32 ∧ isSigNaN .f32 0x7F800001#32 ∧ isQuietNaN .f64 0x7FF8000000000000#64 ∧
    isInf .f32 0x7F800000#32 ∧ ¬ signOf .f32 0x7F800000#32 ∧ isInf .f32 0xFF800000#32 ∧ signOf .f32 0xFF800000#32 ∧
    isInf .f64 0xFFF0000000000000#64 ∧ isZero .f32 0x80000000#32 ∧ ¬ isNaN .f32 0x80000000#32 ∧
    isZero .f64 0x0000000000000000#64 ∧ isFinite .f32 0x00000001#32 ∧ ¬ isZero .f32 0x00000001#32 ∧
    signOf .f32 0x80000001#32 ∧ ¬ isZero .f32 0x80000001#32 ∧ isFinite .f64 0x7FEFFFFFFFFFFFFF#64 := by decide

/-- DivisionByZero, second part: a response with the infinite flag. -/
theorem witness_division_by_zero :
    ∃ t, exec (.f32_div .rne false (args 0x00000001 0x80000000)) (unit .after) = .next t ∧
      t.response = some ⟨0xFF800000, 0x08⟩ := ⟨_, rfl, rfl⟩

/-- AddSubOfFinite, MulAddOfFinite: a sum that is not 0, an exact cancellation, two zeros of one sign. -/
theorem witness_sums :
    (isFinite .f32 0x3F800000#32 = true ∧ isFinite .f32 0x00000001#32 = true ∧
      valueOf ℚ .f32 0x3F800000#32 + valueOf ℚ .f32 0x3F800000#32 ≠ 0) ∧
    valueOf ℚ .f32 0x3F800000#32 + valueOf ℚ .f32 0xBF800000#32 = 0 ∧
    (isZero .f32 0x80000000#32 ∧ valueOf ℚ .f32 0x80000000#32 + valueOf ℚ .f32 0x80000000#32 = 0) ∧
    valueOf ℚ .f32 0x3F800000#32 * valueOf ℚ .f32 0x40000000#32 + valueOf ℚ .f32 0xC0000000#32 = 0 := by
  decide +kernel

/-- MulOfFinite, DivOfFinite, RemOfFinite, SqrtOfFinite and the datapath statements: finite operands, zero and not,
subnormal and largest. -/
theorem witness_finite_operands :
    isFinite .f32 0x00000001#32 = true ∧ isZero .f32 0x00000001#32 = false ∧ signOf .f32 0x00000001#32 = false ∧
    isFinite .f32 0x7F7FFFFF#32 = true ∧ isZero .f32 0x7F7FFFFF#32 = false ∧ isFinite .f32 0x80000000#32 = true ∧
    isZero .f32 0x80000000#32 = true ∧ isFinite .f64 0xFFEFFFFFFFFFFFFF#64 = true ∧
    isZero .f64 0x0000000000000001#64 = false ∧ signOf .f64 0x0000000000000001#64 = false := by decide

/-- ComparisonsOrderValues, CompareDatapathAgrees: a relation that holds, one that does not, with an infinity and with
the two zeros. -/
theorem witness_comparisons :
    isNaN .f32 0xFF800000#32 = false ∧ isNaN .f32 0x00000001#32 = false ∧
    relation .lt (extValue .f32 0xFF800000#32) (extValue .f32 0x00000001#32) ∧
    ¬ relation .lt (extValue .f32 0x80000000#32) (extValue .f32 0x00000000#32) ∧
    relation .eq (extValue .f32 0x80000000#32) (extValue .f32 0x00000000#32) := by
  refine ⟨by decide, by decide, ?_, ?_, ?_⟩ <;> simp only [relation] <;> decide +kernel

/-- RoundToIntIdempotent, second clause: the first exponent field with no fraction bits. -/
theorem witness_integral_pattern :
    Fmt.f32.bias + Fmt.f32.p - 1 ≤ expOf .f32 0x4B000001#32 ∧ ¬ isNaN .f32 0x4B000001#32 ∧
    Fmt.f64.bias + Fmt.f64.p - 1 ≤ expOf .f64 0x4330000000000001#64 := by decide

/-- FloatToInteger: rounded integers below, above and in the range of `ui32`, at its ends. -/
theorem witness_integer_ranges :
    (isFinite .f32 0xBF000000#32 ∧ -roundedMag .f32 0xBF000000#32 .rdn < IntFmt.ui32.min) ∧
    (IntFmt.ui32.max < roundedMag .f64 0x41EFFFFFFFF00000#64 .rne) ∧
    (IntFmt.ui32.min ≤ roundedMag .f64 0x41EFFFFFFFF00000#64 .rtz ∧
      roundedMag .f64 0x41EFFFFFFFF00000#64 .rtz ≤ IntFmt.ui32.max) := by decide +kernel

/-- IntegerToFloat, IntToFloatDatapathAgrees, Int32ToDoubleIsExact, SmallIntegerRoundTrip. -/
theorem witness_integers :
    intVal .i64 0x8000000000000000#64 ≠ 0 ∧ intVal .ui32 0#32 = 0 ∧ IntFmt.i32.width = 32 ∧
    (intVal .i64 0xFFFFFFFFFF000000#64).natAbs ≤ 2 ^ Fmt.f32.p := by decide

/-- NarrowOfNonNaN, WidenOfNonNaN, NarrowInvertsWiden. -/
theorem witness_conversion_operands :
    isInf .f64 0x7FF0000000000000#64 ∧ isZero .f64 0x8000000000000000#64 ∧
    (isFinite .f64 0x380FFFFFFFFFFFFF#64 ∧ ¬ isZero .f64 0x380FFFFFFFFFFFFF#64) ∧ isFinite .f32 0x007FFFFF#32 ∧
    isNaN .f32 0x007FFFFF#32 = false := by decide

/-- AddSignSymmetry: operands of one sign, and of opposite signs with a sum that is not 0. -/
theorem witness_sign_symmetry :
    signOf .f32 0x80000000#32 = signOf .f32 0x80000001#32 ∧
    (¬ (isInf .f32 0x3F800001#32 ∧ isInf .f32 0xBF800000#32) ∧
      valueOf ℚ .f32 0x3F800001#32 + valueOf ℚ .f32 0xBF800000#32 ≠ 0) := by decide +kernel

end Sys2Proof.Tests
end

section
/-! How the request queue drives a step (00_scope.md R9, 20_memory.md R47): `step_request` is the case of a decoded
request, beside `step_idle` and `step_reset` of the step's laws. -/

namespace Sys2Proof.Machine

/-- The oldest input is a request that decodes. -/
theorem step_request {s : State} {r : Request} {rest : List HostInput} {i : Instr}
    (hs : s.inputs = .request r :: rest) (hd : decode r = .ok i) : step s = exec i (s.taking rest) := by
  simp only [step, hs, hd]

/-- Settles O7: taking the oldest input only shortens the queue, so this is the step's case of a decoded request. -/
theorem stepRunsDecodedInstruction : Obligations.StepRunsDecodedInstruction :=
  fun _ _ _ _ hs hd => step_request hs hd

/-- Settles O11, the step's case of an empty queue. -/
theorem idleStepKeepsState : Obligations.IdleStepKeepsState :=
  fun _ hs => step_idle hs

end Sys2Proof.Machine
end

section
/-! Who writes the two registers (10_state.md R22, R23, 44_nan_and_flag_logic.md R166, R168): a kernel has one response
for each tininess mode, and the two differ only in the underflow bit; `exec_next_cases` says what an instruction does to
the state. -/

namespace Sys2Proof.Machine

/-- Two results of one kernel that agree in all but the underflow flag. -/
def AgreeButUF {n : Nat} (x y : BitVec n × FlagSet) : Prop :=
  x.1 = y.1 ∧ ∀ k, k ≠ 1 → x.2.getLsbD k = y.2.getLsbD k

namespace AgreeButUF

theorem refl {n : Nat} (x : BitVec n × FlagSet) : AgreeButUF x x := ⟨rfl, fun _ _ => rfl⟩

theorem ite {n : Nat} {p : Prop} [Decidable p] {x y x' y' : BitVec n × FlagSet} (hx : AgreeButUF x x')
    (hy : AgreeButUF y y') : AgreeButUF (if p then x else y) (if p then x' else y') := by
  split
  · exact hx
  · exact hy

end AgreeButUF

theorem flagIf_UF_getLsbD (c : Bool) {k : Nat} (hk : k ≠ 1) : (flagIf c UF).getLsbD k = false := by
  have hUF : UF = BitVec.twoPow 5 1 := rfl
  cases c <;> simp [flagIf, noFlags, hUF, BitVec.getLsbD_twoPow, hk.symm]

section Kernels
variable (fmt : Fmt) (rm : RoundingMode) (tm tm' : Tininess)

/-- The flags already raised do not reach the rounded pattern. -/
theorem roundFinish_fst (sign : Bool) (exp : Int) (sig : Nat) (fl fl' : FlagSet) :
    (roundFinish fmt sign exp sig rm fl).1 = (roundFinish fmt sign exp sig rm fl').1 := by
  unfold roundFinish
  dsimp only
  split <;> rfl

/-- The mode reaches the rounding engine only through `tiny`, which raises `UF` alone (43_rounding_engine.md R131). -/
theorem roundPack_agreeButUF (sign : Bool) (exp : Int) (sig : Nat) :
    AgreeButUF (roundPack fmt sign exp sig rm tm) (roundPack fmt sign exp sig rm tm') := by
  refine .ite ⟨roundFinish_fst .., fun k hk => ?_⟩ (.refl _)
  simp only [roundFinish_flags, BitVec.getLsbD_or, flagIf_UF_getLsbD _ hk]

theorem roundExact_agreeButUF (sign : Bool) (m : Nat) (sticky : Bool) (e : Int) :
    AgreeButUF (roundExact fmt sign m sticky e rm tm) (roundExact fmt sign m sticky e rm tm') :=
  roundPack_agreeButUF ..

variable (a b c : Pat fmt)

/-! In each kernel the mode stands in the rounding of the last branch only. -/

theorem addSub_agreeButUF (neg : Bool) :
    AgreeButUF (addSub fmt neg a b rm tm) (addSub fmt neg a b rm tm') :=
  .ite (.refl _) <| .ite (.refl _) <| .ite (.refl _) <| .ite (.refl _) <| .ite (.refl _) <|
    roundExact_agreeButUF ..

theorem mul_agreeButUF : AgreeButUF (mul fmt a b rm tm) (mul fmt a b rm tm') :=
  .ite (.refl _) <| .ite (.refl _) <| .ite (.refl _) <| roundExact_agreeButUF ..

theorem mulAdd_agreeButUF (cfg : Config) :
    AgreeButUF (mulAdd cfg fmt a b c rm tm) (mulAdd cfg fmt a b c rm tm') :=
  .ite (.refl _) <| .ite (.refl _) <| .ite (.refl _) <| .ite (.refl _) <| .ite (.refl _) <| .ite (.refl _) <|
    roundExact_agreeButUF ..

theorem div_agreeButUF : AgreeButUF (div fmt a b rm tm) (div fmt a b rm tm') :=
  .ite (.refl _) <| .ite (.refl _) <| .ite (.refl _) <| .ite (.refl _) <| .ite (.refl _) <|
    roundExact_agreeButUF ..

theorem sqrt_agreeButUF : AgreeButUF (sqrt fmt a rm tm) (sqrt fmt a rm tm') :=
  .ite (.refl _) <| .ite (.refl _) <| .ite (.refl _) <| .ite (.refl _) <| roundExact_agreeButUF ..

theorem intToFloat_agreeButUF (ity : IntFmt) (x : BitVec ity.width) :
    AgreeButUF (intToFloat fmt ity x rm tm) (intToFloat fmt ity x rm tm') :=
  .ite (.refl _) <| roundExact_agreeButUF ..

theorem floatToFloat_agreeButUF (dst : Fmt) :
    AgreeButUF (floatToFloat fmt dst a rm tm) (floatToFloat fmt dst a rm tm') :=
  .ite (.refl _) <| .ite (.refl _) <| .ite (.refl _) <| roundExact_agreeButUF ..

end Kernels

/-- An instruction with one response for each mode, whatever else the state holds, the two apart in the underflow bit
at most. -/
def RespondsByMode (i : Instr) : Prop :=
  ∃ (z : Word) (fl : Tininess → FlagSet),
    (∀ k, k ≠ 1 → (fl .before).getLsbD k = (fl .after).getLsbD k) ∧ ∀ s : State, Answers i s z (fl s.tininess)

namespace RespondsByMode
variable {i : Instr}

theorem of_rounded {n : Nat} (f : Tininess → BitVec n × FlagSet) (hi : ∀ s, exec i s = s.finishPattern (f s.tininess))
    (hf : AgreeButUF (f .before) (f .after)) : RespondsByMode i := by
  obtain ⟨hz, hfl⟩ := hf
  refine ⟨(f .before).1.setWidth 64, fun tm => (f tm).2, hfl, fun s => ?_⟩
  have hs : (f s.tininess).1 = (f .before).1 := by
    cases s.tininess
    · rfl
    · exact hz.symm
  rw [Answers, hi, State.finishPattern_eq, State.finishKernel_eq, hs]

/-- A kernel that does not read the mode. -/
theorem of_fixed {z : Word} {fl : FlagSet} (hi : ∀ s, exec i s = s.finishKernel z fl) : RespondsByMode i :=
  ⟨z, fun _ => fl, fun _ _ => rfl, hi⟩

end RespondsByMode

/-- 44_nan_and_flag_logic.md R166, R168. -/
theorem kernel_respondsByMode {i : Instr} (hk : isKernel i = true) : RespondsByMode i := by
  cases i
  case ctx_init | flags_reset | flags_read => cases hk
  case f32_add | f32_sub | f64_add | f64_sub => exact .of_rounded _ (fun _ => rfl) (addSub_agreeButUF ..)
  case f32_mul | f64_mul => exact .of_rounded _ (fun _ => rfl) (mul_agreeButUF ..)
  case f32_mulAdd | f64_mulAdd => exact .of_rounded _ (fun _ => rfl) (mulAdd_agreeButUF ..)
  case f32_div | f64_div => exact .of_rounded _ (fun _ => rfl) (div_agreeButUF ..)
  case f32_sqrt | f64_sqrt => exact .of_rounded _ (fun _ => rfl) (sqrt_agreeButUF ..)
  case ui32_to_f32 | ui64_to_f32 | i32_to_f32 | i64_to_f32 | ui32_to_f64 | ui64_to_f64 | i32_to_f64 | i64_to_f64 =>
    exact .of_rounded _ (fun _ => rfl) (intToFloat_agreeButUF ..)
  case f32_to_f64 | f64_to_f32 => exact .of_rounded _ (fun _ => rfl) (floatToFloat_agreeButUF ..)
  -- what is left (remainder, round to integer, comparisons, classification, float to integer) does not read the mode
  all_goals exact .of_fixed fun _ => rfl

/-- The three requests that are not kernel requests. -/
theorem control_cases {i : Instr} (hk : isKernel i = false) :
    ∃ spare ops, i = .ctx_init spare ops ∨ i = .flags_reset spare ops ∨ i = .flags_read spare ops := by
  unfold isKernel at hk
  split at hk
  · exact ⟨_, _, .inl rfl⟩
  · exact ⟨_, _, .inr (.inl rfl)⟩
  · exact ⟨_, _, .inr (.inr rfl)⟩
  · cases hk

/-- What an instruction that answers a next state did. -/
theorem exec_next_cases {i : Instr} {s t : State} (h : exec i s = .next t) :
    (isKernel i = true ∧ ∃ z fl, t = (s.accumulate fl).respond z fl) ∨
    ∃ spare ops,
      (i = .ctx_init spare ops ∧ t = (s.setContext noFlags (tininessOf ops.a)).respond 0 noFlags) ∨
      (i = .flags_reset spare ops ∧ t = (s.setContext noFlags s.tininess).respond 0 noFlags) ∨
      (i = .flags_read spare ops ∧ t = s.respond (s.flags.setWidth 64) noFlags) := by
  cases hk : isKernel i with
  | true =>
    obtain ⟨z, fl, -, hans⟩ := kernel_respondsByMode hk
    cases (hans s).symm.trans h
    exact .inl ⟨rfl, z, fl s.tininess, rfl⟩
  | false =>
    obtain ⟨spare, ops, rfl | rfl | rfl⟩ := control_cases hk <;> cases h
    · exact .inr ⟨spare, ops, .inl ⟨rfl, rfl⟩⟩
    · exact .inr ⟨spare, ops, .inr (.inl ⟨rfl, rfl⟩)⟩
    · exact .inr ⟨spare, ops, .inr (.inr ⟨rfl, rfl⟩)⟩

/-- The mode `ctx_init` writes has the code in `A[0]` (30_encoding.md R61). -/
theorem tininessCode_tininessOf (x : Word) : tininessCode (tininessOf x) = x.extractLsb' 0 1 := by
  ext k hk
  obtain rfl : k = 0 := by omega
  cases hx : x[0] <;> simp [tininessOf, hx, tininessCode]

/-- Only `ctx_init` and `flags_reset` clear a flag: every other instruction keeps what `FLAGS` holds. -/
theorem exec_clears_flag {i : Instr} {s t : State} {k : Nat} (h : exec i s = .next t)
    (hs : s.flags.getLsbD k = true) (ht : t.flags.getLsbD k = false) :
    ∃ spare ops, i = .ctx_init spare ops ∨ i = .flags_reset spare ops := by
  obtain ⟨-, z, fl, rfl⟩ | ⟨spare, ops, ⟨hi, -⟩ | ⟨hi, -⟩ | ⟨-, rfl⟩⟩ := exec_next_cases h
  · simp [hs] at ht
  · exact ⟨spare, ops, .inl hi⟩
  · exact ⟨spare, ops, .inr hi⟩
  · simp [hs] at ht

/-- Only `ctx_init` changes the tininess mode, and it clears `FLAGS` with it. -/
theorem exec_changes_tininess {i : Instr} {s t : State} (h : exec i s = .next t) (ht : t.tininess ≠ s.tininess) :
    t.flags = 0#5 ∧ ∃ spare ops, i = .ctx_init spare ops ∧ t.tininess = tininessOf ops.a := by
  obtain ⟨-, z, fl, rfl⟩ | ⟨spare, ops, ⟨hi, rfl⟩ | ⟨-, rfl⟩ | ⟨-, rfl⟩⟩ := exec_next_cases h
  · exact absurd rfl ht
  · exact ⟨rfl, spare, ops, hi, rfl⟩
  · exact absurd rfl ht
  · exact absurd rfl ht

/-- Settles O13: a kernel's response is fixed but for the mode, and a step that clears a flag took an input that
writes `FLAGS` anew. -/
theorem flagsAccumulate : Obligations.FlagsAccumulate := by
  refine ⟨fun i s hk => ?_, fun s t k h hs ht => ?_⟩
  · obtain ⟨z, fl, -, hans⟩ := kernel_respondsByMode hk
    exact ⟨_, ⟨z, fl s.tininess⟩, hans s, rfl, rfl, fun f => hans { s with flags := f }⟩
  · obtain ⟨-, rfl⟩ | ⟨rest, hin, -⟩ | ⟨r, rest, i, hin, hd, hexec⟩ := step_next_cases h
    · simp [hs] at ht
    · exact .inl ⟨rest, hin⟩
    · obtain ⟨spare, ops, rfl | rfl⟩ := exec_clears_flag hexec hs ht
      · exact .inr ⟨r, rest, spare, ops, hin, .inl hd⟩
      · exact .inr ⟨r, rest, spare, ops, hin, .inr hd⟩

/-- Settles O14: by the step's cases only a reset and `ctx_init` write the mode, and the mode shows in the underflow
bit of a kernel's response alone. -/
theorem tininessWrittenOnlyByCtxInit : Obligations.TininessWrittenOnlyByCtxInit := by
  refine ⟨fun s t h hne => ?_, rfl, rfl, fun i s hk => ?_⟩
  · obtain ⟨-, rfl⟩ | ⟨rest, hin, rfl⟩ | ⟨r, rest, i, hin, hd, hexec⟩ := step_next_cases h
    · exact absurd rfl hne
    · exact ⟨State.afterReset_flags rest, .inl ⟨rest, hin⟩⟩
    · obtain ⟨hfl, spare, ops, rfl, htm⟩ := exec_changes_tininess hexec hne
      exact ⟨hfl, .inr ⟨r, rest, spare, ops, hin, hd, htm ▸ tininessCode_tininessOf ops.a⟩⟩
  · obtain ⟨z, fl, hbits, hans⟩ := kernel_respondsByMode hk
    exact ⟨z, fl .before, fl .after, hans _, hans _, hbits⟩

/-- Settles O9: the decided `P_RESET_TININESS` is `AFTER` (log entry 5). -/
theorem stateAfterReset : Obligations.StateAfterReset := ⟨State.reset_flags, rfl⟩

end Sys2Proof.Machine
end

section
/-! A run of kernel requests (20_memory.md R47, 44_nan_and_flag_logic.md R168): `step_kernelRequest` is one request,
whose flags are those it returns to a fresh unit in the same mode; a run is that step again and again, since it keeps
the mode and takes one input. -/

namespace Sys2Proof.Machine

/-- What a kernel request returns does not depend on the rest of the state, so `flagsOf` tells what it returns here. -/
theorem exec_kernelRequest {r : Request} {i : Instr} (hd : decode r = .ok i) (hk : isKernel i = true) (s : State) :
    ∃ z, Answers i s z (flagsOf s.tininess r) := by
  obtain ⟨z, fl, -, hans⟩ := kernel_respondsByMode hk
  have hfl : flagsOf s.tininess r = fl s.tininess := by
    simp only [flagsOf, hd]
    rw [hans]
    rfl
  exact ⟨z, hfl ▸ hans s⟩

/-- A step whose oldest input is a kernel request takes it and merges its flags into `FLAGS`. -/
theorem step_kernelRequest {s : State} {r : Request} {rest : List HostInput}
    (hr : ∃ i, decode r = .ok i ∧ isKernel i = true) (hs : s.inputs = .request r :: rest) :
    ∃ t, step s = .next t ∧ t.inputs = rest ∧ t.tininess = s.tininess ∧ t.flags = s.flags ||| flagsOf s.tininess r := by
  obtain ⟨i, hd, hk⟩ := hr
  obtain ⟨z, hans⟩ := exec_kernelRequest hd hk (s.taking rest)
  exact ⟨_, (step_request hs hd).trans hans, rfl, rfl, rfl⟩

/-- A run whose first step answers `t` goes on from `t`. -/
theorem run_succ_of_step {s t : State} (h : step s = .next t) (k : Nat) :
    Host.Core.run core (k + 1) s = Host.Core.run core k t := by
  have hc : core.step s = .next t := h
  simp only [Host.Core.run, hc]

/-- As many steps as there are kernel requests take them all and merge the flags of each. -/
theorem run_kernelRequests {rs : List Request} {s : State} {later : List HostInput}
    (hrs : ∀ r ∈ rs, ∃ i, decode r = .ok i ∧ isKernel i = true)
    (hs : s.inputs = rs.map HostInput.request ++ later) :
    ∃ t : State, Host.Core.run core rs.length s = .next t ∧ t.inputs = later ∧ t.tininess = s.tininess ∧
      t.flags = rs.foldl (fun f r => f ||| flagsOf s.tininess r) s.flags := by
  induction rs generalizing s with
  | nil => exact ⟨s, rfl, hs, rfl, rfl⟩
  | cons r rs ih =>
    obtain ⟨hr, hrs⟩ := List.forall_mem_cons.mp hrs
    obtain ⟨u, hstep, hin, htm, hfl⟩ := step_kernelRequest hr hs
    obtain ⟨t, hrun, hlater, htm', hfl'⟩ := ih hrs hin
    refine ⟨t, (run_succ_of_step hstep _).trans hrun, hlater, htm'.trans htm, ?_⟩
    rw [hfl', htm, hfl, List.foldl_cons]

/-- Merging flags is commutative and associative, so the order of the requests does not show in `FLAGS`. -/
theorem foldl_or_perm {α : Type} (g : α → FlagSet) (f : FlagSet) {rs rs' : List α} (h : rs.Perm rs') :
    rs'.foldl (fun f r => f ||| g r) f = rs.foldl (fun f r => f ||| g r) f :=
  h.symm.foldl_eq' (fun _ _ _ _ _ => by ac_rfl) f

/-- Settles O15, by induction on the list of requests; the order of the merges does not matter. -/
theorem runOfKernelRequestsAccumulates : Obligations.RunOfKernelRequestsAccumulates :=
  fun _ s _ hrs hs => ⟨run_kernelRequests hrs hs, fun _ h => foldl_or_perm (flagsOf s.tininess) s.flags h⟩

end Sys2Proof.Machine
end

section
/-! The request format (30_encoding.md R56): the decoder's fields as digits of the number a command word stands for, the
number of each encoded word, and so the field the decoder reads back from it. The well-formedness checks of R63 are
written on that number, so the two meet here. -/

namespace Sys2Proof

namespace CmdWord
variable (c : CmdWord)

theorem toNat_op : c.op.toNat = c.toNat % 64 := BitVec.extractLsb'_toNat ..

theorem toNat_rm : c.rm.toNat = c.toNat / 64 % 8 := by
  rw [rm, BitVec.extractLsb'_toNat, Nat.shiftRight_eq_div_pow]

theorem toNat_spare : c.spare.toNat = c.toNat / 64 % 16 := by
  rw [spare, BitVec.extractLsb'_toNat, Nat.shiftRight_eq_div_pow]

theorem toNat_exact : c.exact.toNat = c.toNat / 512 % 2 := Nat.toNat_testBit c.toNat 9

theorem rsv_eq_zero_iff : c.rsv = 0#6 ↔ c.toNat < 1024 := by
  have hc := c.isLt
  rw [BitVec.toNat_eq, rsv, BitVec.extractLsb'_toNat, Nat.shiftRight_eq_div_pow]
  norm_num only [BitVec.toNat_ofNat]
  omega

end CmdWord

theorem toNat_append_eq_add {m n : Nat} (x : BitVec m) (y : BitVec n) :
    (x ++ y).toNat = x.toNat * 2 ^ n + y.toNat := by
  rw [BitVec.toNat_append, ← Nat.shiftLeft_add_eq_or_of_lt y.isLt, Nat.shiftLeft_eq]

section Words
variable (op : BitVec 6) (rm : RoundingMode) (exact : Bool) (spare : BitVec 4)

theorem toNat_kernelCmd :
    (kernelCmd op rm exact).toNat = exact.toNat * 512 + rm.code.toNat * 64 + op.toNat := by
  have h : (kernelCmd op rm exact).toNat = (0#6 ++ BitVec.ofBool exact ++ rm.code ++ op).toNat := rfl
  rw [h, toNat_append_eq_add, toNat_append_eq_add, toNat_append_eq_add, BitVec.toNat_ofBool, BitVec.toNat_zero]
  omega

theorem toNat_controlCmd : (controlCmd op spare).toNat = spare.toNat * 64 + op.toNat := by
  have h : (controlCmd op spare).toNat = (0#6 ++ spare ++ op).toNat := rfl
  rw [h, toNat_append_eq_add, toNat_append_eq_add, BitVec.toNat_zero]
  omega

@[simp] theorem kernelCmd_rsv : (kernelCmd op rm exact).rsv = 0#6 := by
  rw [CmdWord.rsv_eq_zero_iff, toNat_kernelCmd]
  have := exact.toNat_lt
  omega

@[simp] theorem kernelCmd_op : (kernelCmd op rm exact).op = op := by
  apply BitVec.eq_of_toNat_eq
  rw [CmdWord.toNat_op, toNat_kernelCmd]
  omega

@[simp] theorem kernelCmd_rm : (kernelCmd op rm exact).rm = rm.code := by
  apply BitVec.eq_of_toNat_eq
  rw [CmdWord.toNat_rm, toNat_kernelCmd]
  omega

@[simp] theorem kernelCmd_exact : (kernelCmd op rm exact).exact = exact := by
  have hbit : (kernelCmd op rm exact).exact.toNat = exact.toNat := by
    rw [CmdWord.toNat_exact, toNat_kernelCmd]
    have := exact.toNat_lt
    omega
  rw [Bool.eq_iff_iff, ← Bool.toNat_eq_one, hbit, Bool.toNat_eq_one]

@[simp] theorem controlCmd_rsv : (controlCmd op spare).rsv = 0#6 := by
  rw [CmdWord.rsv_eq_zero_iff, toNat_controlCmd]
  omega

@[simp] theorem controlCmd_op : (controlCmd op spare).op = op := by
  apply BitVec.eq_of_toNat_eq
  rw [CmdWord.toNat_op, toNat_controlCmd]
  omega

@[simp] theorem controlCmd_spare : (controlCmd op spare).spare = spare := by
  apply BitVec.eq_of_toNat_eq
  rw [CmdWord.toNat_spare, toNat_controlCmd]
  omega

end Words

/-- A command word with clear reserved bits is its fields put together. -/
theorem kernelCmd_of_fields {c : CmdWord} {rm : RoundingMode} (hrsv : c.rsv = 0#6) (hrm : c.rm = rm.code) :
    kernelCmd c.op rm c.exact = c := by
  apply BitVec.eq_of_toNat_eq
  rw [CmdWord.rsv_eq_zero_iff] at hrsv
  rw [toNat_kernelCmd, ← hrm, CmdWord.toNat_op, CmdWord.toNat_rm, CmdWord.toNat_exact]
  omega

theorem controlCmd_of_fields {c : CmdWord} (hrsv : c.rsv = 0#6) : controlCmd c.op c.spare = c := by
  apply BitVec.eq_of_toNat_eq
  rw [CmdWord.rsv_eq_zero_iff] at hrsv
  rw [toNat_controlCmd, CmdWord.toNat_op, CmdWord.toNat_spare]
  omega

end Sys2Proof
end

section
/-! The decoder of 30_encoding.md R64. `decode_kernelCmd` and `decode_controlCmd` are what it reads from an encoded
word, `decode_ok_cases` is what a request that decodes holds, and `decode_cases` is the order of its tests in the words
of R63. -/

namespace Sys2Proof

/-! ## The two tables -/

theorem RoundingMode.ofCode_eq_some_iff {c : BitVec 3} {rm : RoundingMode} :
    RoundingMode.ofCode c = some rm ↔ c = rm.code := by
  constructor
  · unfold RoundingMode.ofCode
    split <;> rintro ⟨⟩ <;> rfl
  · rintro rfl
    cases rm <;> rfl

theorem RoundingMode.isSome_ofCode : ∀ c : BitVec 3, (RoundingMode.ofCode c).isSome = decide (c.toNat ≤ 5) := by
  decide

/-- Whether an entry of the operation table is a control request's. -/
def OpForm.isControl : OpForm → Bool
  | .control _ => true
  | .kernel _ => false

/-- The decoder's table lists exactly the assigned codes. -/
theorem isSome_opForm : ∀ op : BitVec 6, (opForm op).isSome = (isControlCode op.toNat || isKernelCode op.toNat) := by
  decide

theorem any_isControl_opForm : ∀ op : BitVec 6, (opForm op).any OpForm.isControl = isControlCode op.toNat := by
  decide

/-- The encoder writes this code for what this entry of the operation table makes. -/
def OpForm.EncodesAs (op : BitVec 6) : OpForm → Prop
  | .control mk => ∀ spare ops, encode (mk spare ops) = ⟨controlCmd op spare, ops⟩
  | .kernel mk => ∀ rm exact ops, encode (mk rm exact ops) = ⟨kernelCmd op rm exact, ops⟩

/-- The decoder's table and the encoder's agree on every code, one case for each row of R58. -/
theorem opForm_encodesAs {op : BitVec 6} {form : OpForm} (h : opForm op = some form) : form.EncodesAs op := by
  unfold opForm at h
  split at h <;> cases h
  all_goals dsimp only [OpForm.EncodesAs]; intros; rfl

/-! ## The round trip -/

theorem decode_kernelCmd {op : BitVec 6} {mk : RoundingMode → Bool → Operands → Instr}
    (h : opForm op = some (.kernel mk)) (rm : RoundingMode) (exact : Bool) (ops : Operands) :
    decode ⟨kernelCmd op rm exact, ops⟩ = .ok (mk rm exact ops) := by
  simp [decode, h, RoundingMode.ofCode_eq_some_iff.mpr rfl]

theorem decode_controlCmd {op : BitVec 6} {mk : BitVec 4 → Operands → Instr}
    (h : opForm op = some (.control mk)) (spare : BitVec 4) (ops : Operands) :
    decode ⟨controlCmd op spare, ops⟩ = .ok (mk spare ops) := by
  simp [decode, h]

/-- Settles O1: the word's fields are read back, and the code finds the instruction's own row of the table. -/
theorem decodeInvertsEncode : Obligations.DecodeInvertsEncode := by
  intro i
  cases i
  case ctx_init | flags_reset | flags_read => exact decode_controlCmd rfl ..
  all_goals exact decode_kernelCmd rfl ..

/-- What a request that decodes holds: clear reserved bits and the row its instruction comes from. -/
theorem decode_ok_cases {r : Request} {i : Instr} (h : decode r = .ok i) :
    r.cmd.rsv = 0#6 ∧
    ((∃ mk, opForm r.cmd.op = some (.control mk) ∧ i = mk r.cmd.spare r.ops) ∨
     (∃ mk rm, opForm r.cmd.op = some (.kernel mk) ∧ r.cmd.rm = rm.code ∧ i = mk rm r.cmd.exact r.ops)) := by
  unfold decode at h
  split at h
  · cases h
  next hrsv =>
    refine ⟨not_not.mp hrsv, ?_⟩
    split at h
    · cases h
    next mk hop => cases h; exact .inl ⟨mk, hop, rfl⟩
    next mk hop =>
      split at h
      · cases h
      next rm hrm => cases h; exact .inr ⟨mk, rm, hop, RoundingMode.ofCode_eq_some_iff.mp hrm, rfl⟩

/-- Settles O2: the encoder writes the row's code and puts the request's own fields back around it. -/
theorem encodeInvertsDecode : Obligations.EncodeInvertsDecode := by
  intro r i h
  obtain ⟨hrsv, ⟨mk, hop, rfl⟩ | ⟨mk, rm, hop, hrm, rfl⟩⟩ := decode_ok_cases h
  · rw [opForm_encodesAs hop, controlCmd_of_fields hrsv]
  · rw [opForm_encodesAs hop, kernelCmd_of_fields hrsv hrm]

/-- Settles O5: each of the nine words is the encoding of its instruction. -/
theorem writtenWordsDecode : Obligations.WrittenWordsDecode := fun ops =>
  ⟨decodeInvertsEncode (.f32_add .rne false ops), decodeInvertsEncode (.f64_div .rtz false ops),
   decodeInvertsEncode (.f32_mulAdd .rup false ops), decodeInvertsEncode (.f64_to_i32 .rdn true ops),
   decodeInvertsEncode (.i64_to_f32 .odd false ops), decodeInvertsEncode (.f64_roundToInt .rmm true ops),
   decodeInvertsEncode (.f64_eq_signaling .rne false ops), decodeInvertsEncode (.ctx_init 0 ops),
   decodeInvertsEncode (.flags_read 14 ops)⟩

/-! ## The rejections -/

theorem Request.reservedClear_iff {r : Request} : r.reservedClear = true ↔ r.cmd.rsv = 0#6 := by
  rw [CmdWord.rsv_eq_zero_iff, Request.reservedClear, decide_eq_true_iff]

theorem Request.opAssigned_eq (r : Request) : r.opAssigned = (opForm r.cmd.op).isSome := by
  rw [isSome_opForm, CmdWord.toNat_op, Request.opAssigned]

theorem Request.modeAllowed_of_opForm {r : Request} {form : OpForm} (h : opForm r.cmd.op = some form) :
    r.modeAllowed = (form.isControl || (RoundingMode.ofCode r.cmd.rm).isSome) := by
  have hcontrol : form.isControl = isControlCode (r.cmd.toNat % 64) := by
    rw [← CmdWord.toNat_op, ← any_isControl_opForm, h, Option.any_some]
  rw [hcontrol, RoundingMode.isSome_ofCode, CmdWord.toNat_rm, Request.modeAllowed]

/-- What the decoder answers, by the first of R63's checks that a request fails. -/
theorem decode_cases (r : Request) :
    (r.reservedClear = false ∧ decode r = .error .reservedBits) ∨
    (r.reservedClear = true ∧ r.opAssigned = false ∧ decode r = .error .unassignedOp) ∨
    (r.reservedClear = true ∧ r.opAssigned = true ∧ r.modeAllowed = false ∧
      decode r = .error .reservedRoundingMode) ∨
    (r.reservedClear = true ∧ r.opAssigned = true ∧ r.modeAllowed = true ∧ ∃ i, decode r = .ok i) := by
  cases hclear : r.reservedClear with
  | false =>
    have hrsv : r.cmd.rsv ≠ 0#6 := fun h => by simp [Request.reservedClear_iff.mpr h] at hclear
    exact .inl ⟨rfl, if_pos hrsv⟩
  | true =>
    have hrsv := Request.reservedClear_iff.mp hclear
    cases hop : opForm r.cmd.op with
    | none => simp [decode, Request.opAssigned_eq, hrsv, hop]
    | some form =>
      cases form with
      | control mk =>
        simp [decode, Request.opAssigned_eq, Request.modeAllowed_of_opForm hop, OpForm.isControl, hrsv, hop]
      | kernel mk =>
        have hmode := Request.modeAllowed_of_opForm hop
        cases hrm : RoundingMode.ofCode r.cmd.rm with
        | none => simp [decode, Request.opAssigned_eq, hmode, OpForm.isControl, hrsv, hop, hrm]
        | some rm => simp [decode, Request.opAssigned_eq, hmode, OpForm.isControl, hrsv, hop, hrm]

/-- Settles O4: the decoder's cases, of which no two hold of one request. -/
theorem decodeRejectsByName : Obligations.DecodeRejectsByName := by
  intro r
  obtain ⟨hclear, hd⟩ | ⟨hclear, hop, hd⟩ | ⟨hclear, hop, hmode, hd⟩ | ⟨hclear, hop, hmode, i, hd⟩ := decode_cases r
  · simp [hclear, hd]
  · simp [hclear, hop, hd]
  · simp [hclear, hop, hmode, hd]
  · simp [hclear, hop, hmode, hd]

/-- A request decodes if it passes the three checks of R63, and is rejected otherwise. -/
theorem decode_wellFormed_cases (r : Request) :
    (r.wellFormed = true ∧ ∃ i, decode r = .ok i) ∨ (r.wellFormed = false ∧ ∃ why, decode r = .error why) := by
  unfold Request.wellFormed
  obtain ⟨hclear, hd⟩ | ⟨hclear, hop, hd⟩ | ⟨hclear, hop, hmode, hd⟩ | ⟨hclear, hop, hmode, hd⟩ := decode_cases r
  · exact .inr ⟨by simp [hclear], _, hd⟩
  · exact .inr ⟨by simp [hop], _, hd⟩
  · exact .inr ⟨by simp [hmode], _, hd⟩
  · exact .inl ⟨by simp [hclear, hop, hmode], hd⟩

end Sys2Proof

namespace Sys2Proof.Machine

/-- The oldest input is a request that the decoder rejects. -/
theorem step_illFormed {s : State} {r : Request} {rest : List HostInput} {why : IllFormed}
    (hs : s.inputs = .request r :: rest) (hd : decode r = .error why) : step s = .refused (.illFormed why) := by
  simp only [step, hs, hd]

/-- Settles O3: a well-formed request decodes and its instruction answers a next state; any other is refused. -/
theorem refusedExactlyWhenIllFormed : Obligations.RefusedExactlyWhenIllFormed := by
  intro r s rest hs
  obtain ⟨hwf, i, hd⟩ | ⟨hwf, why, hd⟩ := decode_wellFormed_cases r
  · obtain ⟨t, hexec⟩ := exec_next_exists i (s.taking rest)
    have hstep : step s = .next t := (step_request hs hd).trans hexec
    simp [hwf, hd, hstep]
  · simp [hwf, hd, step_illFormed hs hd]

end Sys2Proof.Machine
end

section
/-! The assembler (30_encoding.md R65): a line encodes a well-formed request when its code is a kernel's,
and every code the assembler writes comes from one of its rows. -/

namespace Sys2Proof.Machine

/-- The code of a kernel line is a kernel's code. -/
def KernelCoded : AsmLine → Prop
  | .kernel op _ _ _ => isKernelCode op.toNat = true
  | .ctxInit _ | .flagsReset | .flagsRead => True

theorem assemble_wellFormed {l : AsmLine} (h : KernelCoded l) : (assemble l).wellFormed = true := by
  cases l with
  | kernel op rm exact operands => exact Laws.EncodeWellFormed.kernel_wellFormed op h ..
  | ctxInit after => exact Laws.EncodeWellFormed.control_wellFormed _ rfl ..
  | flagsReset => exact Laws.EncodeWellFormed.control_wellFormed _ rfl ..
  | flagsRead => exact Laws.EncodeWellFormed.control_wellFormed _ rfl ..

/-- The rows carry kernel codes only. -/
theorem asmRows_isKernelCode : ∀ row ∈ asmRows, isKernelCode row.code.toNat = true := by
  decide

theorem parseKernel_kernelCoded {head : List String} {operands : List (List Char)} {l : AsmLine}
    (h : parseKernel head operands = some l) : KernelCoded l := by
  cases head with
  | nil => cases h
  | cons mnemonic modifiers =>
    simp only [parseKernel, Option.bind_eq_bind, Option.bind_eq_some_iff] at h
    obtain ⟨row, hrow, ⟨rm, exact⟩, -, values, -, hl⟩ := h
    split at hl
    · cases hl
      exact asmRows_isKernelCode row (List.mem_of_find?_eq_some hrow)
    · cases hl

theorem parseTokens_kernelCoded {tokens : List (List Char)} {l : AsmLine} (h : parseTokens tokens = some l) :
    KernelCoded l := by
  cases tokens with
  | nil => cases h
  | cons head operands =>
    dsimp only [parseTokens] at h
    split_ifs at h
    · split at h <;> cases h <;> trivial
    · cases h; trivial
    · cases h; trivial
    · exact parseKernel_kernelCoded h

/-- Settles O6: the request is the encoding of the line the tokens parse to. -/
theorem assembledLinesAreWellFormed : Obligations.AssembledLinesAreWellFormed := by
  intro line r h
  obtain ⟨l, hl, rfl⟩ := Option.map_eq_some_iff.mp h
  exact assemble_wellFormed (parseTokens_kernelCoded hl)

end Sys2Proof.Machine
end

section
/-! Exact values in the rounding engine (43_rounding_engine.md R131, R136): a significand with clear round bits rounds to
itself whatever the mode, so a conversion whose every value fits the format does not read `rm`. -/

namespace Sys2Proof.Machine

theorem roundInc_lt (fmt : Fmt) (sign : Bool) (rm : RoundingMode) : roundInc fmt sign rm < 2 ^ fmt.g := by
  cases fmt <;> cases sign <;> cases rm <;> decide

theorem half_pos (fmt : Fmt) : 0 < fmt.half := Nat.two_pow_pos _

theorem bitlen_le_of_lt {a n : Nat} (h : a < 2 ^ n) : bitlen a ≤ n := by
  unfold bitlen
  split
  · exact Nat.zero_le n
  next ha => exact (Nat.log2_lt ha).mpr h

section
variable {fmt : Fmt} {sign : Bool} {exp : Int} {sig : Nat}

/-- With clear round bits nothing is rounded: the increment does not carry into the kept bits. -/
theorem roundFinish_of_dvd (h : 2 ^ fmt.g ∣ sig) (rm : RoundingMode) (fl : FlagSet) :
    roundFinish fmt sign exp sig rm fl =
      (pack fmt sign (if sig / 2 ^ fmt.g = 0 then 0 else exp) (sig / 2 ^ fmt.g), fl) := by
  obtain ⟨n, rfl⟩ := h
  have hpos : 0 < 2 ^ fmt.g := Nat.two_pow_pos _
  have hn : (2 ^ fmt.g * n + roundInc fmt sign rm) >>> fmt.g = n := by
    rw [Nat.shiftRight_eq_div_pow, Nat.mul_add_div hpos, Nat.div_eq_of_lt (roundInc_lt fmt sign rm), Nat.add_zero]
  simp [roundFinish, hn, (half_pos fmt).ne, flagIf, noFlags, Nat.mul_div_cancel_left n hpos]

theorem roundPack_of_dvd (h : 2 ^ fmt.g ∣ sig) (hlo : 0 ≤ exp) (hhi : exp < fmt.expMax - 2) (rm : RoundingMode)
    (tm : Tininess) :
    roundPack fmt sign exp sig rm tm =
      (pack fmt sign (if sig / 2 ^ fmt.g = 0 then 0 else exp) (sig / 2 ^ fmt.g), noFlags) := by
  rw [roundPack, if_neg (by omega), if_neg (by omega), roundFinish_of_dvd h]

/-- A magnitude of at most `p` bits with a normal exponent is its own rounding, in every mode and with no flag. -/
theorem roundExact_eq_packExact {m : Nat} {e : Int} (hm : bitlen m ≤ fmt.p) (hlo : 2 ≤ e + bitlen m + fmt.bias)
    (hhi : e + bitlen m + fmt.bias < fmt.expMax) (rm : RoundingMode) (tm : Tininess) :
    roundExact fmt sign m false e rm tm = (packExact fmt sign m e, noFlags) := by
  have hk : fmt.p + fmt.g = fmt.k - 1 ∧ 3 ≤ fmt.k ∧ fmt.p < fmt.k - 1 := by cases fmt <;> decide
  obtain ⟨hg, hk, hp⟩ := hk
  have hdvd : 2 ^ fmt.g ∣ m <<< (fmt.k - 1 - bitlen m) := by
    rw [Nat.shiftLeft_eq]
    exact Dvd.dvd.mul_left (Nat.pow_dvd_pow 2 (by omega)) m
  simp only [packExact, roundExact, if_neg (show ¬ fmt.k - 1 ≤ bitlen m by omega)]
  rw [roundPack_of_dvd hdvd (by omega) (by omega), roundPack_of_dvd hdvd (by omega) (by omega)]

end

theorem unpack_q_bounds (fmt : Fmt) (a : Pat fmt) :
    fmt.emin - fmt.t ≤ (unpack fmt a).q ∧ (unpack fmt a).q ≤ (fmt.expMax : Int) - fmt.bias - fmt.t := by
  have hexp := expOf_le_expMax fmt a
  have hpos : 1 ≤ fmt.expMax := by cases fmt <;> decide
  unfold unpack Fmt.emin
  split <;> dsimp only <;> omega

/-- Every finite single is a double (49_convert.md R269). -/
theorem roundExact_widen (sign : Bool) (a : Pat .f32) (rm : RoundingMode) (tm : Tininess) :
    roundExact .f64 sign (unpack .f32 a).m false (unpack .f32 a).q rm tm =
      (packExact .f64 sign (unpack .f32 a).m (unpack .f32 a).q, noFlags) := by
  have hm := bitlen_le_of_lt (unpack_m_lt .f32 a)
  obtain ⟨hlo, hhi⟩ := unpack_q_bounds .f32 a
  simp only [Fmt.emin, Fmt.expMax, Fmt.bias, Fmt.p, Fmt.t, Fmt.w] at hm hlo hhi
  apply roundExact_eq_packExact <;> simp only [Fmt.expMax, Fmt.bias, Fmt.p, Fmt.t, Fmt.w] <;> omega

theorem natAbs_toInt_lt {n : Nat} (x : BitVec n) : x.toInt.natAbs < 2 ^ n := by
  have hx := x.isLt
  rw [BitVec.toInt_eq_toNat_cond]
  split <;> omega

theorem natAbs_intVal_lt (ity : IntFmt) (x : BitVec ity.width) : (intVal ity x).natAbs < 2 ^ ity.width := by
  cases ity with
  | ui32 | ui64 => exact x.isLt
  | i32 | i64 => exact natAbs_toInt_lt x

/-- Every 32-bit integer is a double (49_convert.md R260). -/
theorem roundExact_int32 {ity : IntFmt} (hw : ity.width = 32) (x : BitVec ity.width) (sign : Bool)
    (rm : RoundingMode) (tm : Tininess) :
    roundExact .f64 sign (intVal ity x).natAbs false 0 rm tm =
      (packExact .f64 sign (intVal ity x).natAbs 0, noFlags) := by
  have hm := bitlen_le_of_lt (natAbs_intVal_lt ity x)
  rw [hw] at hm
  apply roundExact_eq_packExact <;> simp only [Fmt.expMax, Fmt.bias, Fmt.p, Fmt.t, Fmt.w] <;> omega

end Sys2Proof.Machine
end

section
/-! The fields a request ignores (30_encoding.md R57, R58, R60, R62): a 32-bit operand is read from the low half of its
field, and an exact conversion gives the same result in every rounding mode. -/

namespace Sys2Proof.Machine

@[simp] theorem patOf_low32 (x : Word) : patOf .f32 (low32 x) = patOf .f32 x := patOf_setWidth ..
@[simp] theorem intOf_ui32_low32 (x : Word) : intOf .ui32 (low32 x) = intOf .ui32 x := patOf_low32 x
@[simp] theorem intOf_i32_low32 (x : Word) : intOf .i32 (low32 x) = intOf .i32 x := patOf_low32 x

@[simp] theorem tininessOf_zext_bit0 (x : Word) : tininessOf (zext (x.extractLsb' 0 1)) = tininessOf x := by
  simp [tininessOf, zext]

theorem floatToFloat_widen_mode (a : Pat .f32) (rm rm' : RoundingMode) (tm : Tininess) :
    floatToFloat .f32 .f64 a rm tm = floatToFloat .f32 .f64 a rm' tm := by
  simp only [floatToFloat, roundExact_widen]

theorem intToFloat_int32_mode {ity : IntFmt} (hw : ity.width = 32) (x : BitVec ity.width) (rm rm' : RoundingMode)
    (tm : Tininess) : intToFloat .f64 ity x rm tm = intToFloat .f64 ity x rm' tm := by
  simp only [intToFloat, roundExact_int32 hw]

/-- Settles O8, one group of requests for each shape of operand fields, the exact conversions and `ctx_init` apart. -/
theorem ignoredFieldsHaveNoEffect : Obligations.IgnoredFieldsHaveNoEffect := by
  intro i s
  cases i
  -- one 32-bit operand
  case f32_sqrt | f32_roundToInt | f32_classify | f32_to_ui32 | f32_to_ui64 | f32_to_i32 | f32_to_i64 =>
    simp only [usedFields, keepA32, exec, execF32Sqrt, execF32RoundToInt, execF32Classify, execF32ToUi32, execF32ToUi64,
      execF32ToI32, execF32ToI64, patOf_low32]
  case ui32_to_f32 => simp only [usedFields, keepA32, exec, execUi32ToF32, intOf_ui32_low32]
  case i32_to_f32 => simp only [usedFields, keepA32, exec, execI32ToF32, intOf_i32_low32]
  -- two and three 32-bit operands
  case f32_add | f32_sub | f32_mul | f32_div | f32_rem =>
    simp only [usedFields, keepAB32, exec, execF32Add, execF32Sub, execF32Mul, execF32Div, execF32Rem, patOf_low32]
  case f32_eq | f32_le | f32_lt | f32_eq_signaling | f32_le_quiet | f32_lt_quiet =>
    simp only [usedFields, keepAB32, exec, execF32Eq, execF32Le, execF32Lt, execF32EqSignaling, execF32LeQuiet,
      execF32LtQuiet, patOf_low32]
  case f32_mulAdd => simp only [usedFields, keepABC32, exec, execF32MulAdd, patOf_low32]
  -- the exact conversions, whose mode is blanked too
  case f32_to_f64 rm exact ops =>
    simp only [usedFields, keepA32, exec, execF32ToF64, patOf_low32, floatToFloat_widen_mode _ .rne rm]
  case ui32_to_f64 rm exact ops =>
    simp only [usedFields, keepA32, exec, execUi32ToF64, intOf_ui32_low32,
      intToFloat_int32_mode (ity := .ui32) rfl _ .rne rm]
  case i32_to_f64 rm exact ops =>
    simp only [usedFields, keepA32, exec, execI32ToF64, intOf_i32_low32,
      intToFloat_int32_mode (ity := .i32) rfl _ .rne rm]
  case ctx_init => simp only [usedFields, exec, execCtxInit, tininessOf_zext_bit0]
  -- what is left (64-bit operands, `flags_reset`, `flags_read`) does not read the fields that are blanked
  all_goals rfl

end Sys2Proof.Machine
end

section
/-! Packing and the classes (40_bit_pack_unpack.md R83, R85, R86): in their ranges the three fields are the digits of
the number a pattern stands for, so a pattern and its fields determine each other; the quiet bit is the top digit of the
fraction, so a NaN with a clear quiet bit has a nonzero digit below it. -/

namespace Sys2Proof.Machine

section Fields
variable {fmt : Fmt} {s : Bool} {e f : Nat}

/-- Fields in their ranges do not wrap when they are packed. -/
theorem packedFields_lt (he : e ≤ fmt.expMax) (hf : f < 2 ^ fmt.t) :
    s.toNat * 2 ^ (fmt.k - 1) + e * 2 ^ fmt.t + f < 2 ^ fmt.k := by
  have hs := s.toNat_le
  cases fmt <;> simp only [Fmt.k, Fmt.t, Fmt.w, Fmt.expMax] at he hf ⊢ <;> omega

/-- One number has one reading as three fields in their ranges. -/
theorem packedFields_inj {s' : Bool} {e' f' : Nat} (he : e ≤ fmt.expMax) (hf : f < 2 ^ fmt.t)
    (he' : e' ≤ fmt.expMax) (hf' : f' < 2 ^ fmt.t)
    (h : s.toNat * 2 ^ (fmt.k - 1) + e * 2 ^ fmt.t + f = s'.toNat * 2 ^ (fmt.k - 1) + e' * 2 ^ fmt.t + f') :
    s = s' ∧ e = e' ∧ f = f' := by
  have hs := s.toNat_le
  have hs' := s'.toNat_le
  have hdigits : s.toNat = s'.toNat ∧ e = e' ∧ f = f' := by
    cases fmt <;> simp only [Fmt.k, Fmt.t, Fmt.w, Fmt.expMax] at he hf he' hf' h <;> omega
  exact hdigits.imp_left fun hsign => Function.LeftInverse.injective Bool.ofNat_toNat hsign

/-- R83, from fields to pattern and back. -/
theorem fields_pack (he : e ≤ fmt.expMax) (hf : f < 2 ^ fmt.t) :
    signOf fmt (pack fmt s e f) = s ∧ expOf fmt (pack fmt s e f) = e ∧ fracOf fmt (pack fmt s e f) = f :=
  packedFields_inj (expOf_le_expMax ..) (fracOf_lt ..) he hf <|
    (toNat_eq_fields fmt (pack fmt s e f)).symm.trans (toNat_pack fmt s e f (packedFields_lt he hf))

end Fields

/-- R83, from pattern to fields and back. -/
theorem pack_fields (fmt : Fmt) (a : Pat fmt) : pack fmt (signOf fmt a) (expOf fmt a) (fracOf fmt a) = a := by
  apply BitVec.eq_of_toNat_eq
  rw [toNat_pack fmt _ _ _ (packedFields_lt (expOf_le_expMax fmt a) (fracOf_lt fmt a)), ← toNat_eq_fields]

/-- Settles O23: both ways by the reading of a pattern's number as its three fields. -/
theorem packInvertsExtraction : Obligations.PackInvertsExtraction :=
  fun fmt => ⟨pack_fields fmt, fun _ _ _ he hf => fields_pack he hf⟩

section Classes
variable (fmt : Fmt) (a : Pat fmt)

/-- R86: the five conditions partition the pairs of an exponent and a fraction. -/
theorem classes_count_eq_one :
    [isNaN fmt a, isInf fmt a, isZero fmt a, isSubnormal fmt a, isNormal fmt a].count true = 1 := by
  have hpos : 0 < fmt.expMax := by cases fmt <;> decide
  have hle := expOf_le_expMax fmt a
  simp only [isNaN, isInf, isZero, isSubnormal, isNormal]
  obtain hzero | hmax | ⟨hlo, hhi⟩ :
      expOf fmt a = 0 ∨ expOf fmt a = fmt.expMax ∨ 0 < expOf fmt a ∧ expOf fmt a < fmt.expMax := by omega
  · cases hf : fracOf fmt a == 0 <;> simp [bne, hzero, hf, hpos.ne]
  · cases hf : fracOf fmt a == 0 <;> simp [bne, hmax, hf, hpos.ne']
  · simp [hlo, hhi, hlo.ne', hhi.ne]

/-- The fraction is the quiet bit over the bits below it. -/
theorem fracOf_eq_quietBit_add :
    fracOf fmt a = (a.extractLsb' 0 (fmt.t - 1)).toNat + 2 ^ (fmt.t - 1) * (a.getLsbD (fmt.t - 1)).toNat := by
  have ht : fmt.t = fmt.t - 1 + 1 := by cases fmt <;> rfl
  have hquiet : (a.getLsbD (fmt.t - 1)).toNat = a.toNat / 2 ^ (fmt.t - 1) % 2 := Nat.toNat_testBit ..
  rw [hquiet, BitVec.extractLsb'_toNat, Nat.shiftRight_zero, ← Nat.mod_pow_succ, ← ht, fracOf_eq]

/-- R85: a signaling NaN is a NaN with a clear quiet bit. -/
theorem isSigNaN_eq : isSigNaN fmt a = (isNaN fmt a && !a.getLsbD (fmt.t - 1)) := by
  have hf := fracOf_eq_quietBit_add fmt a
  unfold isSigNaN isNaN
  cases hq : a.getLsbD (fmt.t - 1) with
  | true => simp
  | false =>
    have hlow : fracOf fmt a = 0 ↔ a.extractLsb' 0 (fmt.t - 1) = 0 := by
      rw [hf, hq, BitVec.toNat_eq]
      simp
    simp [bne, hlow, Bool.beq_eq_decide_eq]

/-- R85: a NaN is signaling or quiet by its quiet bit, so it is one of the two and not both. -/
theorem isNaN_sig_or_quiet :
    isNaN fmt a = (isSigNaN fmt a || isQuietNaN fmt a) ∧ (isSigNaN fmt a && isQuietNaN fmt a) = false := by
  rw [isSigNaN_eq, isQuietNaN]
  cases a.getLsbD (fmt.t - 1) <;> simp

end Classes

/-- Settles O24: the classes by the exponent and the fraction, the two kinds of NaN by the quiet bit. -/
theorem classesPartitionPatterns : Obligations.ClassesPartitionPatterns :=
  fun fmt a => ⟨classes_count_eq_one fmt a, isNaN_sig_or_quiet fmt a⟩

end Sys2Proof.Machine
end

section
/-! The shift with jam (41_sticky_shifter.md R101, R104, R105). It rounds to odd, so an even number compares with the
shifted value exactly as its multiple by the distance's power compares with the input, and a value is known by its
comparisons with the even numbers: composition, order and the rounding decisions all follow from that. -/

namespace Sys2Proof.Machine

theorem or_one_eq_odd (q : Nat) : q ||| 1 = 2 * (q / 2) + 1 := by
  have hdiv : (q ||| 1) / 2 = q / 2 := by rw [Nat.or_div_two, Nat.or_zero]
  have hmod : (q ||| 1) % 2 = 1 := Nat.or_mod_two_eq_one.mpr (.inr rfl)
  omega

/-- Two numbers that compare alike with every even number are equal. -/
theorem eq_of_even_comparisons {x y : Nat} (hle : ∀ m, 2 ∣ m → (x ≤ m ↔ y ≤ m))
    (hge : ∀ m, 2 ∣ m → (m ≤ x ↔ m ≤ y)) : x = y := by
  have lex := hle (2 * (x / 2)) (Nat.dvd_mul_right ..)
  have ley := hle (2 * (y / 2)) (Nat.dvd_mul_right ..)
  have gex := hge (2 * (x / 2)) (Nat.dvd_mul_right ..)
  have gey := hge (2 * (y / 2)) (Nat.dvd_mul_right ..)
  omega

@[simp] theorem jamBit_bne_zero_eq_zero (r : Nat) : jamBit (r != 0) = 0 ↔ r = 0 := by
  by_cases hr : r = 0 <;> simp [jamBit, hr]

theorem jamBit_bne_zero_le (r : Nat) : jamBit (r != 0) ≤ r := by
  by_cases hr : r = 0
  · simp [hr]
  · exact (jamBit_le_one _).trans (Nat.pos_of_ne_zero hr)

section Jam
variable {n a b m : Nat} (d : Nat)

/-- Within the width the three cases of R101 are one formula. -/
theorem shiftRightJam_eq (ha : a < 2 ^ n) : shiftRightJam n a d = a / 2 ^ d ||| jamBit (a % 2 ^ d != 0) := by
  unfold shiftRightJam
  split_ifs with h0 hn
  · simp [h0, Nat.mod_one]
  · have hlt : a < 2 ^ d := ha.trans_le (Nat.pow_le_pow_right Nat.two_pos hn)
    rw [Nat.div_eq_of_lt hlt, Nat.mod_eq_of_lt hlt, Nat.zero_or]
  · rw [Nat.shiftRight_eq_div_pow]

theorem shiftRightJam_lt (ha : a < 2 ^ n) : shiftRightJam n a d < 2 ^ n := by
  rw [shiftRightJam_eq d ha]
  refine Nat.or_lt_two_pow ((Nat.div_le_self ..).trans_lt ha) ?_
  exact ((jamBit_bne_zero_le _).trans (Nat.mod_le ..)).trans_lt ha

/-- Either nothing is lost, or the result is the odd number between the two even ones about the exact quotient. -/
theorem shiftRightJam_cases (ha : a < 2 ^ n) :
    a = 2 ^ d * shiftRightJam n a d ∨ ¬ 2 ^ d ∣ a ∧ shiftRightJam n a d = 2 * (a / 2 ^ d / 2) + 1 := by
  rw [shiftRightJam_eq d ha]
  by_cases hr : a % 2 ^ d = 0
  · refine .inl ?_
    rw [hr, bne_self_eq_false, jamBit_false, Nat.or_zero, Nat.mul_div_cancel' (Nat.dvd_of_mod_eq_zero hr)]
  · refine .inr ⟨fun h => hr (Nat.mod_eq_zero_of_dvd h), ?_⟩
    rw [bne_iff_ne.mpr hr, jamBit_true, or_one_eq_odd]

theorem even_le_shiftRightJam_iff (ha : a < 2 ^ n) (hm : 2 ∣ m) : m ≤ shiftRightJam n a d ↔ m * 2 ^ d ≤ a := by
  have hpos : 0 < 2 ^ d := Nat.two_pow_pos d
  obtain hexact | ⟨-, hodd⟩ := shiftRightJam_cases d ha
  · conv_rhs => rw [hexact, Nat.mul_comm]
    exact (Nat.mul_le_mul_left_iff hpos).symm
  · rw [hodd, ← Nat.le_div_iff_mul_le hpos]
    omega

theorem shiftRightJam_le_even_iff (ha : a < 2 ^ n) (hm : 2 ∣ m) : shiftRightJam n a d ≤ m ↔ a ≤ m * 2 ^ d := by
  have hpos : 0 < 2 ^ d := Nat.two_pow_pos d
  obtain hexact | ⟨hlost, hodd⟩ := shiftRightJam_cases d ha
  · conv_rhs => rw [hexact, Nat.mul_comm]
    exact (Nat.mul_le_mul_right_iff hpos).symm
  · have hne : a ≠ m * 2 ^ d := fun h => hlost (h ▸ Nat.dvd_mul_left ..)
    have hquot : a / 2 ^ d < m ↔ a < m * 2 ^ d := Nat.div_lt_iff_lt_mul hpos
    omega

/-- R105 (a). -/
theorem shiftRightJam_shiftRightJam (d' : Nat) (ha : a < 2 ^ n) :
    shiftRightJam n (shiftRightJam n a d) d' = shiftRightJam n a (d + d') := by
  have hlt := shiftRightJam_lt d ha
  have hpow (m : Nat) : m * 2 ^ d' * 2 ^ d = m * 2 ^ (d + d') := by ring
  refine eq_of_even_comparisons (fun m hm => ?_) fun m hm => ?_
  · rw [shiftRightJam_le_even_iff d' hlt hm, shiftRightJam_le_even_iff d ha (hm.mul_right _), hpow,
      shiftRightJam_le_even_iff _ ha hm]
  · rw [even_le_shiftRightJam_iff d' hlt hm, even_le_shiftRightJam_iff d ha (hm.mul_right _), hpow,
      even_le_shiftRightJam_iff _ ha hm]

/-- R105 (b): shifted values out of order would have an even number between them, and inputs on its two sides. -/
theorem shiftRightJam_mono (hb : b < 2 ^ n) (hab : a ≤ b) : shiftRightJam n a d ≤ shiftRightJam n b d := by
  by_contra! hlt
  have heven : 2 ∣ 2 * (shiftRightJam n a d / 2) := Nat.dvd_mul_right ..
  have hba := (shiftRightJam_le_even_iff d hb heven).mp (by omega)
  have hle := (even_le_shiftRightJam_iff d (hab.trans_lt hb) heven).mp (by omega)
  obtain rfl : a = b := hab.antisymm (hba.trans hle)
  exact hlt.false

/-- The low bits of the shifted value come from the low bits of the input. -/
theorem shiftRightJam_mod_two_pow_succ (h : Nat) (ha : a < 2 ^ n) :
    shiftRightJam n a d % 2 ^ (h + 1) = shiftRightJam n (a % 2 ^ (h + 1 + d)) d := by
  have hpow : 2 ^ (h + 1 + d) = 2 ^ d * 2 ^ (h + 1) := by rw [Nat.pow_add, Nat.mul_comm]
  have hjam : jamBit (a % 2 ^ d != 0) % 2 ^ (h + 1) = jamBit (a % 2 ^ d != 0) :=
    Nat.mod_eq_of_lt ((jamBit_le_one _).trans_lt (Nat.one_lt_two_pow h.succ_ne_zero))
  rw [shiftRightJam_eq d ha, shiftRightJam_eq d ((Nat.mod_le ..).trans_lt ha), Nat.or_mod_two_pow, hjam, hpow,
    Nat.mod_mul_right_div_self, Nat.mod_mul_right_mod]

end Jam

/-- Settles O25. The rounding decisions compare the low bits with the two even numbers 0 and `2 ^ h`. -/
theorem jamLaws : Obligations.JamLaws := by
  intro n a b d d' ha hb
  refine ⟨shiftRightJam_shiftRightJam d d' ha, shiftRightJam_mono d hb, fun h hh _ => ?_⟩
  have hlow : a % 2 ^ (h + 1 + d) < 2 ^ n := (Nat.mod_le ..).trans_lt ha
  have hhalf : 2 ∣ 2 ^ h := dvd_pow_self 2 (by omega)
  rw [shiftRightJam_mod_two_pow_succ d h ha, Nat.pow_add 2 h d]
  refine ⟨?_, ?_, ?_⟩
  · simpa using shiftRightJam_le_even_iff d hlow (dvd_zero 2)
  · simpa using (even_le_shiftRightJam_iff d hlow hhalf).not
  · rw [le_antisymm_iff, le_antisymm_iff, shiftRightJam_le_even_iff d hlow hhalf,
      even_le_shiftRightJam_iff d hlow hhalf]

section ExtraWord
variable {a d : Nat}

theorem shiftRightJam64Extra_fst (ha : a < 2 ^ 64) (hd : 1 ≤ d) : (shiftRightJam64Extra a 0 d).1 = a / 2 ^ d := by
  simp only [shiftRightJam64Extra, if_neg (Nat.ne_of_gt hd)]
  split_ifs with hnear
  · rw [Nat.shiftRight_eq_div_pow]
  · exact (Nat.div_eq_of_lt (ha.trans_le (Nat.pow_le_pow_right Nat.two_pos (by omega)))).symm

/-- Up to the width the extra word is the lost part as a fraction of `2 ^ 64`. -/
theorem shiftRightJam64Extra_snd_near (ha : a < 2 ^ 64) (hd : 1 ≤ d) (hnear : d ≤ 64) :
    (shiftRightJam64Extra a 0 d).2 * 2 ^ d = a % 2 ^ d * 2 ^ 64 := by
  have hsplit : 2 ^ d * 2 ^ (64 - d) = 2 ^ 64 := by rw [← Nat.pow_add, Nat.add_sub_of_le hnear]
  simp only [shiftRightJam64Extra, if_neg (Nat.ne_of_gt hd)]
  obtain hlt | rfl := hnear.lt_or_eq
  · simp only [if_pos hlt, bne_self_eq_false, jamBit_false, Nat.or_zero]
    rw [Nat.shiftLeft_eq, ← hsplit, Nat.mul_mod_mul_right, Nat.mul_assoc, Nat.mul_comm (2 ^ (64 - d))]
  · rw [Nat.mod_eq_of_lt ha]
    simp

/-- Past the width the extra word only says whether anything was lost. -/
theorem shiftRightJam64Extra_snd_far (hfar : 64 < d) : (shiftRightJam64Extra a 0 d).2 = jamBit (a != 0) := by
  simp [shiftRightJam64Extra, show d ≠ 0 by omega, show ¬ d < 64 by omega, show d ≠ 64 by omega]

end ExtraWord

/-- Settles O26. Up to the width the extra word is in proportion to the lost part, whose unit is `2 ^ d`; past the width
the whole input is lost and is less than half the unit. -/
theorem extraWordReadsLostBits : Obligations.ExtraWordReadsLostBits := by
  intro a d ha hd
  refine ⟨shiftRightJam64Extra_fst ha hd, ?_⟩
  obtain hnear | hfar := le_or_gt d 64
  · have hprop := shiftRightJam64Extra_snd_near ha hd hnear
    have hpos : 0 < 2 ^ d := Nat.two_pow_pos d
    have hlost : a % 2 ^ d < 2 ^ d := Nat.mod_lt _ hpos
    generalize (shiftRightJam64Extra a 0 d).2 = x at hprop ⊢
    generalize a % 2 ^ d = lost at hprop hlost ⊢
    have hzero : x = 0 ↔ x * 2 ^ d = 0 := by simp
    have hhalf : x = 2 ^ 63 ↔ x * 2 ^ d = 2 ^ 63 * 2 ^ d := (Nat.mul_left_inj hpos.ne').symm
    have habove : 2 ^ 63 < x ↔ 2 ^ 63 * 2 ^ d < x * 2 ^ d := (Nat.mul_lt_mul_right hpos).symm
    have htop : x < 2 ^ 64 ↔ x * 2 ^ d < 2 ^ 64 * 2 ^ d := (Nat.mul_lt_mul_right hpos).symm
    rw [hzero, hhalf, habove, htop, hprop]
    omega
  · have hunit : 2 ^ 65 ≤ 2 ^ d := Nat.pow_le_pow_right Nat.two_pos hfar
    have hlost : a % 2 ^ d = a := Nat.mod_eq_of_lt (by omega)
    have hle := jamBit_le_one (a != 0)
    rw [shiftRightJam64Extra_snd_far hfar, hlost]
    exact ⟨jamBit_bne_zero_eq_zero a, by omega, by omega, by omega⟩

end Sys2Proof.Machine
end

section
/-! The normaliser (42_normalizer.md R121, R122, R124): both of its shifts put the leading 1 of a positive number of
at most `n` bits at the top of `n` bits, with `n = p` for a subnormal fraction and `n = k - 1` for the engine. -/

namespace Sys2Proof.Machine

/-- Shifting out the leading zeros of an `n`-bit field puts the leading 1 in its top bit. -/
theorem shiftLeft_clz_bounds {n a : Nat} (h0 : 0 < a) (hn : bitlen a ≤ n) :
    2 ^ (n - 1) ≤ a <<< clz n a ∧ a <<< clz n a < 2 ^ n := by
  have hpos : 1 ≤ bitlen a := by simp [bitlen_pos h0]
  have htop : 2 ^ (n - 1) = 2 ^ (bitlen a - 1) * 2 ^ clz n a := by
    rw [← Nat.pow_add, clz]; congr 1; omega
  have hend : 2 ^ n = 2 ^ bitlen a * 2 ^ clz n a := by
    rw [← Nat.pow_add, clz]; congr 1; omega
  rw [Nat.shiftLeft_eq, htop, hend]
  exact ⟨Nat.mul_le_mul_right _ (two_pow_bitlen_le h0),
    Nat.mul_lt_mul_of_pos_right (lt_two_pow_bitlen a) (Nat.two_pow_pos _)⟩

/-- R121's shift distance is the number of leading zeros in the `p` bits of a significand. -/
theorem normSubnormalSig_eq {fmt : Fmt} {frac : Nat} (h0 : 0 < frac) :
    normSubnormalSig fmt frac = some (1 - (clz fmt.p frac : Int), frac <<< clz fmt.p frac) := by
  have hkp : fmt.p ≤ fmt.k := by cases fmt <;> decide
  have hsd : clz fmt.k frac - (fmt.k - fmt.p) = clz fmt.p frac := by simp only [clz]; omega
  simp only [normSubnormalSig, if_neg h0.ne', hsd]

/-- Settles O27. A fraction has a leading zero in the `p` bits of a significand, so the exponent drops at least to 0. -/
theorem subnormalNormalisationKeepsValue : Obligations.SubnormalNormalisationKeepsValue := by
  intro fmt frac h0 hlt
  have hlen : bitlen frac ≤ fmt.t := bitlen_le_of_lt hlt
  have hp : fmt.p = fmt.t + 1 := rfl
  have hdist : 1 ≤ clz fmt.p frac := by simp only [clz]; omega
  obtain ⟨hlo, hhi⟩ := shiftLeft_clz_bounds (n := fmt.p) h0 (by omega)
  refine ⟨_, _, normSubnormalSig_eq h0, hlo, hhi, by omega, ?_⟩
  rw [Nat.shiftLeft_eq, Nat.cast_mul, Nat.cast_pow, Nat.cast_ofNat, mul_assoc, ← zpow_natCast,
    ← zpow_add₀ two_ne_zero, Fmt.emin]
  congr 2
  ring

section
variable {fmt : Fmt} {sign : Bool} {e : Int} {sig : Nat} {rm : RoundingMode} {tm : Tininess}

/-- The bridge R136 hands an exact significand of at most `k - 1` bits to the engine with its leading 1 in bit `k - 2`. -/
theorem roundExact_eq_roundPack (hlen : bitlen sig ≤ fmt.k - 1) :
    roundExact fmt sign sig false (e - fmt.bias - (fmt.k - 3)) rm tm =
      roundPack fmt sign (e - clz (fmt.k - 1) sig) (sig <<< clz (fmt.k - 1) sig) rm tm := by
  have hexp : e - fmt.bias - (fmt.k - 3) + (bitlen sig - (fmt.k - 1 : Nat)) + fmt.bias + (fmt.k - 3) =
      e - clz (fmt.k - 1) sig := by
    simp only [clz]
    omega
  simp only [roundExact, hexp]
  split
  next hfull => simp [clz, hlen.antisymm hfull, Nat.mod_one]
  next => rfl

/-- R122's fast path agrees with the engine: the `G` round bits it skips are clear and the exponent is in range. -/
theorem normRoundPack_eq_roundPack (h0 : 0 < sig) :
    normRoundPack fmt sign e sig rm tm =
      roundPack fmt sign (e - clz (fmt.k - 1) sig) (sig <<< clz (fmt.k - 1) sig) rm tm := by
  have hsd : clz fmt.k sig - 1 = clz (fmt.k - 1) sig := Nat.sub_right_comm ..
  simp only [normRoundPack, if_neg h0.ne', hsd]
  split
  next hfast =>
    obtain ⟨hg, hlo, hhi⟩ := hfast
    have hclear : sig <<< clz (fmt.k - 1) sig = sig <<< (clz (fmt.k - 1) sig - fmt.g) * 2 ^ fmt.g := by
      rw [← Nat.shiftLeft_eq, ← Nat.shiftLeft_add, Nat.sub_add_cancel hg]
    have hkept : sig <<< clz (fmt.k - 1) sig / 2 ^ fmt.g = sig <<< (clz (fmt.k - 1) sig - fmt.g) := by
      rw [hclear, Nat.mul_div_cancel _ (Nat.two_pow_pos _)]
    have hne : sig <<< (clz (fmt.k - 1) sig - fmt.g) ≠ 0 := by simp [Nat.shiftLeft_eq, h0.ne']
    rw [roundPack_of_dvd (Dvd.intro_left _ hclear.symm) hlo hhi, hkept, if_neg hne]
  next => rfl

end

/-- Settles O28: the normaliser and the bridge hand the engine the same exponent and significand. -/
theorem normRoundPackIsRoundExact : Obligations.NormRoundPackIsRoundExact := by
  intro fmt sign e sig rm tm h0 hlt
  rw [normRoundPack_eq_roundPack h0, roundExact_eq_roundPack (bitlen_le_of_lt hlt)]

end Sys2Proof.Machine
end

section
/-! Rounding decisions (43_rounding_engine.md R137, R138). To round a number to an integer it is enough to know how it
compares with the integers and with the points half way between them: `ComparesLike` says that a natural number compares
so in its place, `RoundsFrom` what a quotient and a remainder tell, and `roundQuot` is the integer they round to. -/

namespace Sys2Proof.Machine

section Comparisons
variable {K : Type} [Field K] [LinearOrder K] {a b n : Nat} {y : K}

/-- `a` and `y` compare alike with every multiple of `b`. -/
def ComparesLike (b a : Nat) (y : K) : Prop := ∀ m : Nat, b ∣ m → (m ≤ a ↔ (m : K) ≤ y) ∧ (a ≤ m ↔ y ≤ m)

namespace ComparesLike
variable {m : Nat}

theorem of_dvd {c : Nat} (hay : ComparesLike b a y) (hbc : b ∣ c) : ComparesLike c a y :=
  fun m hm => hay m (hbc.trans hm)

theorem lt_iff (hay : ComparesLike b a y) (hm : b ∣ m) : m < a ↔ (m : K) < y := by
  rw [← not_le, ← not_le, (hay m hm).2]

theorem gt_iff (hay : ComparesLike b a y) (hm : b ∣ m) : a < m ↔ y < m := by
  rw [← not_le, ← not_le, (hay m hm).1]

theorem eq_iff (hay : ComparesLike b a y) (hm : b ∣ m) : a = m ↔ y = m := by
  rw [le_antisymm_iff, le_antisymm_iff, (hay m hm).1, (hay m hm).2]

end ComparesLike

variable [IsStrictOrderedRing K]

theorem comparesLike_self (b a : Nat) : ComparesLike b a (a : K) :=
  fun _ _ => ⟨Nat.cast_le.symm, Nat.cast_le.symm⟩

/-- A number strictly between two neighbours is seen, doubled, as the odd number between two even ones. -/
theorem comparesLike_of_between (hlo : (n : K) < y) (hhi : y < n + 1) : ComparesLike 2 (2 * n + 1) (2 * y) := by
  rintro _ ⟨j, rfl⟩
  have hle : j ≤ n ↔ (j : K) ≤ y :=
    ⟨fun h => (Nat.cast_le.mpr h).trans hlo.le, fun h => Nat.lt_succ_iff.mp (by exact_mod_cast h.trans_lt hhi)⟩
  have hge : n < j ↔ y ≤ j :=
    ⟨fun h => hhi.le.trans (by exact_mod_cast h), fun h => by exact_mod_cast hlo.trans_le h⟩
  simp only [Nat.cast_mul, Nat.cast_ofNat, mul_le_mul_iff_right₀ (zero_lt_two' K), ← hle, ← hge]
  omega

/-- R105: a shift with jam divides and keeps the comparisons with the even numbers. -/
theorem ComparesLike.jam {w : Nat} (hay : ComparesLike 2 a y) (d : Nat) (ha : a < 2 ^ w) :
    ComparesLike 2 (shiftRightJam w a d) (y / 2 ^ d) := by
  intro m hm
  have hpos : (0 : K) < 2 ^ d := by positivity
  obtain ⟨hge, hle⟩ := hay (m * 2 ^ d) (hm.mul_right _)
  rw [even_le_shiftRightJam_iff d ha hm, shiftRightJam_le_even_iff d ha hm, hge, hle, le_div_iff₀ hpos,
    div_le_iff₀ hpos]
  simp

end Comparisons

section Quotients
variable {K : Type} [Field K] [LinearOrder K] [FloorRing K] {a n r h : Nat} {x y : K}

/-- `x` is `n` and a fraction that compares with 0 and with one half as `r` does with 0 and with `h`. -/
structure RoundsFrom (x : K) (n r h : Nat) : Prop where
  floor_eq : ⌊x⌋ = n
  exact_iff : x - n = 0 ↔ r = 0
  above_iff : 1 / 2 < x - n ↔ h < r
  tie_iff : x - n = 1 / 2 ↔ r = h

/-- `n`, or its successor when the mode and the sign round the remainder `r` up, `h` being half the unit. -/
def roundQuot (s : Bool) (rm : RoundingMode) (n r h : Nat) : Nat :=
  if r = 0 then n
  else
    match rm with
    | .rne => if h < r ∨ (r = h ∧ n % 2 = 1) then n + 1 else n
    | .rmm => if h ≤ r then n + 1 else n
    | .rtz => n
    | .rdn => if s then n + 1 else n
    | .rup => if s then n else n + 1
    | .odd => if n % 2 = 0 then n + 1 else n

@[simp] theorem roundQuot_zero (s : Bool) (rm : RoundingMode) (n h : Nat) : roundQuot s rm n 0 h = n := rfl

theorem roundQuot_bounds (s : Bool) (rm : RoundingMode) (n r h : Nat) :
    n ≤ roundQuot s rm n r h ∧ roundQuot s rm n r h ≤ n + 1 := by
  cases rm <;> simp only [roundQuot] <;> split_ifs <;> omega

namespace RoundsFrom
variable {q : Int} (hx : RoundsFrom (x / 2 ^ q) n r h) (s : Bool) (rm : RoundingMode)
include hx

theorem rndCount_eq : rndCount s rm x q = roundQuot s rm n r h := by
  obtain ⟨hfloor, hexact, habove, htie⟩ := hx
  have hge : 1 / 2 ≤ x / 2 ^ q - n ↔ h ≤ r := by
    rw [le_iff_lt_or_eq, le_iff_lt_or_eq, habove, eq_comm, htie, eq_comm]
  unfold rndCount roundQuot
  simp only [hfloor, Int.cast_natCast, hexact, habove, htie, hge]
  by_cases hr : r = 0
  · simp only [if_pos hr]
  · cases rm <;> simp only [if_neg hr] <;> norm_cast

theorem rnd_eq : rnd s rm x q = (roundQuot s rm n r h : K) * 2 ^ q := by
  rw [rnd, hx.rndCount_eq, Int.cast_natCast]

end RoundsFrom

variable [IsStrictOrderedRing K]

theorem roundsFrom_natCast (n : Nat) : RoundsFrom (n : K) n 0 1 :=
  ⟨Int.floor_natCast n, by simp, by norm_num, by norm_num⟩

/-- The quotient and the remainder by a unit of `2 * h` can be taken of any number that compares like `y` with the
multiples of `h`. -/
theorem ComparesLike.roundsFrom (hay : ComparesLike h a y) (h0 : 0 < h) :
    RoundsFrom (y / (2 * h : Nat)) (a / (2 * h)) (a % (2 * h)) h := by
  have hpos : (0 : K) < 2 * h := by positivity
  have hmod : a % (2 * h) < 2 * h := Nat.mod_lt _ (by omega)
  have ha := Nat.div_add_mod a (2 * h)
  generalize a / (2 * h) = n at ha ⊢
  generalize a % (2 * h) = r at ha hmod ⊢
  have hunit : h ∣ 2 * h * n := Dvd.intro (2 * n) (by ring)
  have hnext : h ∣ 2 * h * (n + 1) := Dvd.intro (2 * (n + 1)) (by ring)
  have hmid : h ∣ 2 * h * n + h := Dvd.intro (2 * n + 1) (by ring)
  have hlo : ((2 * h * n : Nat) : K) ≤ y := (hay _ hunit).1.mp (by omega)
  have hhi : y < ((2 * h * (n + 1) : Nat) : K) := (hay.gt_iff hnext).mp (by rw [Nat.mul_succ]; omega)
  have hexact : r = 0 ↔ y = ((2 * h * n : Nat) : K) := by rw [← hay.eq_iff hunit]; omega
  have habove : h < r ↔ ((2 * h * n + h : Nat) : K) < y := by rw [← hay.lt_iff hmid]; omega
  have htie : r = h ↔ y = ((2 * h * n + h : Nat) : K) := by rw [← hay.eq_iff hmid]; omega
  push_cast at hlo hhi hexact habove htie ⊢
  refine ⟨Int.floor_eq_iff.mpr ⟨?_, ?_⟩, ?_, ?_, ?_⟩
  · rwa [Int.cast_natCast, le_div_iff₀ hpos, mul_comm]
  · rwa [Int.cast_natCast, div_lt_iff₀ hpos, mul_comm]
  · rw [hexact, sub_eq_zero, div_eq_iff hpos.ne', mul_comm]
  · rw [habove, lt_sub_iff_add_lt, lt_div_iff₀ hpos]
    ring_nf
  · rw [htie, sub_eq_iff_eq_add, div_eq_iff hpos.ne']
    ring_nf

/-- Rounding changes a number exactly when something is left over. -/
theorem RoundsFrom.rnd_eq_self_iff {q : Int} (hx : RoundsFrom (x / 2 ^ q) n r h) (s : Bool) (rm : RoundingMode) :
  rnd s rm x q = x ↔ r = 0 := by
  have hpos : (0 : K) < 2 ^ q := by positivity
  rw [hx.rnd_eq, ← eq_div_iff hpos.ne']
  constructor
  · intro h
    rw [← hx.exact_iff, ← Int.cast_natCast n, ← hx.floor_eq, ← h, Int.floor_natCast, Int.cast_natCast, sub_self]
  · intro hr
    rw [hr, roundQuot_zero, eq_comm, ← sub_eq_zero, hx.exact_iff, hr]

end Quotients

theorem intMode_config (rm : RoundingMode) : intMode config rm = towardInt rm := by
  simp [intMode, towardInt, config]

/-- R138's shift splits a magnitude into an integer and what is lost of it. -/
theorem roundIntMag_eq (s : Bool) (m : Nat) (e : Int) (rm : RoundingMode) :
    ∃ n r h, RoundsFrom ((m : ℚ) * 2 ^ e) n r h ∧
      roundIntMag config s m e rm = (roundQuot s (towardInt rm) n r h, r != 0) := by
  obtain he | he := lt_or_ge e 0
  · obtain ⟨d, rfl⟩ : ∃ d : Nat, e = -(d + 1 : Nat) := ⟨(-e).toNat - 1, by omega⟩
    have hd : (- -((d + 1 : Nat) : Int)).toNat = d + 1 := by omega
    have hunit : (m : ℚ) * 2 ^ (-(d + 1 : Nat) : Int) = m / (2 * 2 ^ d : Nat) := by
      rw [zpow_neg, zpow_natCast, ← pow_succ', ← div_eq_mul_inv, Nat.cast_pow, Nat.cast_ofNat]
    refine ⟨_, _, _, hunit ▸ (comparesLike_self (2 ^ d) m).roundsFrom (Nat.two_pow_pos d), ?_⟩
    simp only [roundIntMag, if_neg (not_le.mpr he), intMode_config, hd, ← pow_succ', Nat.shiftRight_eq_div_pow]
    by_cases hr : m % 2 ^ (d + 1) = 0
    · simp [hr]
    · cases rm <;> simp [roundQuot, towardInt, hr]
  · obtain ⟨d, rfl⟩ := Int.eq_ofNat_of_zero_le he
    refine ⟨m * 2 ^ d, 0, 1, ?_, ?_⟩
    · simpa using roundsFrom_natCast (K := ℚ) (m * 2 ^ d)
    · simp [roundIntMag, Nat.shiftLeft_eq]

/-- Settles O30: the model's integer and its Boolean are `roundQuot` and the remainder of one split, and so is the
reference's rounding. -/
theorem roundIntMagRoundsToInteger : Obligations.RoundIntMagRoundsToInteger := by
  intro s m e rm
  obtain ⟨n, r, h, hx, heq⟩ := roundIntMag_eq s m e rm
  rw [← div_one ((m : ℚ) * 2 ^ e), ← zpow_zero (2 : ℚ)] at hx
  have hself := hx.rnd_eq_self_iff s (towardInt rm)
  rw [hx.rnd_eq, zpow_zero, mul_one] at hself
  rw [heq]
  exact ⟨(hx.rndCount_eq s _).symm, by rw [bne_iff_ne, Ne, Ne, hself]⟩

end Sys2Proof.Machine
end

section
/-! The rounding engine is correct rounding (43_rounding_engine.md R131, R136, R137). The bridge hands it a significand
that compares with the even numbers as the exact magnitude does (`EngineInput`), which step 2's shift keeps; half a last
place is even, so the engine's round bits decide as the magnitude itself would (`roundFinish_value`). What is left are
the two range tests, both a question whether the rounded significand carries into the next binade. -/

namespace Sys2Proof.Machine

section Significand
variable {fmt : Fmt} {s : Bool} {exp : Int} {sig : Nat} {rm : RoundingMode} {tm : Tininess}

theorem two_mul_half (fmt : Fmt) : 2 * fmt.half = 2 ^ fmt.g := by cases fmt <;> rfl

theorem two_dvd_half (fmt : Fmt) : 2 ∣ fmt.half := by cases fmt <;> decide

theorem top_eq (fmt : Fmt) : fmt.top = 2 * 2 ^ (fmt.t + fmt.g) := by cases fmt <;> rfl

theorem lt_two_pow_k_of_lt_top (h : sig < fmt.top) : sig < 2 ^ fmt.k :=
  h.trans_le (Nat.pow_le_pow_right Nat.two_pos (Nat.sub_le ..))

/-- The significand R131 packs: the kept bits, rounded. -/
def roundedSig (fmt : Fmt) (s : Bool) (rm : RoundingMode) (sig : Nat) : Nat :=
  roundQuot s rm (sig / 2 ^ fmt.g) (sig % 2 ^ fmt.g) fmt.half

/-- The increment carries into the kept bits exactly when it fills the round bits. -/
theorem add_roundInc_shiftRight (fmt : Fmt) (s : Bool) (rm : RoundingMode) (sig : Nat) :
    (sig + roundInc fmt s rm) >>> fmt.g =
      sig / 2 ^ fmt.g + if 2 ^ fmt.g ≤ sig % 2 ^ fmt.g + roundInc fmt s rm then 1 else 0 := by
  have hinc := roundInc_lt fmt s rm
  rw [Nat.shiftRight_eq_div_pow, Nat.add_div (Nat.two_pow_pos _), Nat.div_eq_of_lt hinc, Nat.mod_eq_of_lt hinc,
    Nat.add_zero]

/-- R131's steps 4 and 5, increment first and corrections after, round as R137 says. -/
theorem roundedSig_eq (fmt : Fmt) (s : Bool) (rm : RoundingMode) (sig : Nat) :
    let n := (sig + roundInc fmt s rm) >>> fmt.g
    let rb := sig % 2 ^ fmt.g
    roundedSig fmt s rm sig =
      if rb ≠ 0 ∧ rm = .odd then n ||| 1 else if rm = .rne ∧ rb = fmt.half then n - n % 2 else n := by
  have hhalf := half_pos fmt
  have hmask : fmt.mask = 2 * fmt.half - 1 := by rw [two_mul_half]; rfl
  have hrb : sig % 2 ^ fmt.g < 2 ^ fmt.g := Nat.mod_lt _ (Nat.two_pow_pos _)
  simp only [add_roundInc_shiftRight, roundedSig, roundQuot, or_one_eq_odd, ← two_mul_half] at hrb ⊢
  generalize sig / (2 * fmt.half) = n
  generalize sig % (2 * fmt.half) = rb at hrb ⊢
  cases rm with
  | rne | rmm =>
    -- Half a unit carries when the round bits reach the other half.
    simp only [roundInc, reduceCtorEq, true_and, false_and, and_false, if_false]
    grind
  | rdn | rup =>
    -- The mask carries unless the round bits are clear.
    simp only [roundInc, hmask, reduceCtorEq, false_and, and_false, if_false]
    grind
  | rtz | odd =>
    -- Nothing is added, so nothing carries.
    simp only [roundInc, Nat.add_zero, reduceCtorEq, and_true, false_and, and_false, if_false]
    grind

theorem roundFinish_eq (fl : FlagSet) :
    roundFinish fmt s exp sig rm fl =
      (pack fmt s (if roundedSig fmt s rm sig = 0 then 0 else exp) (roundedSig fmt s rm sig),
        fl ||| flagIf (sig % 2 ^ fmt.g != 0) NX) := by
  rw [roundedSig_eq]
  simp only [roundFinish]
  by_cases hodd : sig % 2 ^ fmt.g ≠ 0 ∧ rm = .odd
  · simp only [if_pos hodd, if_neg (show ¬ (sig + roundInc fmt s rm) >>> fmt.g ||| 1 = 0 by rw [or_one_eq_odd]; omega)]
  · simp only [if_neg hodd]

/-- The corrections of steps 4 and 5 change the last place only, so the carry is the increment's. -/
theorem two_pow_p_le_roundedSig_iff : 2 ^ fmt.p ≤ roundedSig fmt s rm sig ↔ fmt.top ≤ sig + roundInc fmt s rm := by
  have htop : fmt.top = 2 ^ fmt.p * 2 ^ fmt.g := by cases fmt <;> rfl
  have hp : 2 ^ fmt.p = 2 * 2 ^ fmt.t := pow_succ' 2 fmt.t
  have hpair : roundedSig fmt s rm sig / 2 = ((sig + roundInc fmt s rm) >>> fmt.g) / 2 := by
    rw [roundedSig_eq, or_one_eq_odd]
    generalize (sig + roundInc fmt s rm) >>> fmt.g = n
    split_ifs <;> omega
  rw [htop, ← Nat.le_div_iff_mul_le (Nat.two_pow_pos _), ← Nat.shiftRight_eq_div_pow]
  omega

theorem roundedSig_le (s : Bool) (rm : RoundingMode) (hsig : sig < fmt.top) : roundedSig fmt s rm sig ≤ 2 ^ fmt.p := by
  have htop : fmt.top = 2 ^ fmt.g * 2 ^ fmt.p := by cases fmt <;> rfl
  exact (roundQuot_bounds ..).2.trans (Nat.div_lt_of_lt_mul (htop ▸ hsig))

theorem le_roundedSig (s : Bool) (rm : RoundingMode) (hsig : fmt.top ≤ 2 * sig) :
    2 ^ fmt.t ≤ roundedSig fmt s rm sig := by
  rw [top_eq, Nat.mul_le_mul_left_iff Nat.two_pos, Nat.pow_add, ← Nat.le_div_iff_mul_le (Nat.two_pow_pos _)] at hsig
  exact hsig.trans (roundQuot_bounds ..).1

/-- The significand after R131's step 2, which shifts when the exponent is negative. -/
def denormSig (fmt : Fmt) (exp : Int) (sig : Nat) : Nat := shiftRightJam fmt.k sig (-exp).toNat

theorem denormSig_of_nonneg (he : 0 ≤ exp) : denormSig fmt exp sig = sig := by
  rw [denormSig, Int.toNat_of_nonpos (by omega), shiftRightJam_zero_dist]

theorem denormSig_lt (hsig : sig < fmt.top) : denormSig fmt exp sig < fmt.top := by
  have heven : 2 ∣ fmt.top := top_eq fmt ▸ Nat.dvd_mul_right ..
  rw [← not_le, denormSig, even_le_shiftRightJam_iff _ (lt_two_pow_k_of_lt_top hsig) heven, not_le]
  exact hsig.trans_le (Nat.le_mul_of_pos_right _ (Nat.two_pow_pos _))

/-- R131's test of step 3. -/
def Overflows (fmt : Fmt) (s : Bool) (rm : RoundingMode) (exp : Int) (sig : Nat) : Prop :=
  exp > fmt.expMax - 2 ∨ exp = fmt.expMax - 2 ∧ fmt.top ≤ sig + roundInc fmt s rm

theorem overflowResult_eq : overflowResult fmt s rm = (overflowTable fmt s rm, OF ||| NX) := by
  have hhalf : fmt.half ≠ 0 := (half_pos fmt).ne'
  have hmask : fmt.mask ≠ 0 := by cases fmt <;> decide
  cases rm <;> cases s <;> simp [overflowResult, overflowTable, roundInc, hhalf, hmask]

theorem roundPack_of_overflows (hov : Overflows fmt s rm exp sig) :
    roundPack fmt s exp sig rm tm = (overflowTable fmt s rm, OF ||| NX) := by
  have hmin : 3 ≤ fmt.expMax := by cases fmt <;> decide
  unfold Overflows at hov
  have hexp : ¬ exp < 0 := by omega
  rw [roundPack, if_neg hexp, if_pos hov, overflowResult_eq]

/-- Without overflow the engine packs the shifted significand, and a tiny result that loses bits underflows. -/
theorem roundPack_of_not_overflows (hov : ¬ Overflows fmt s rm exp sig) :
    roundPack fmt s exp sig rm tm =
      roundFinish fmt s exp.toNat (denormSig fmt exp sig) rm
        (flagIf ((decide (exp < 0) && isTiny fmt s exp sig rm tm) && denormSig fmt exp sig % 2 ^ fmt.g != 0) UF) := by
  unfold Overflows at hov
  rw [roundPack, if_neg hov]
  split_ifs with hneg
  · rw [Int.toNat_of_nonpos hneg.le, decide_eq_true hneg, Bool.true_and]
    rfl
  · rw [denormSig_of_nonneg (not_lt.mp hneg), Int.toNat_of_nonneg (not_lt.mp hneg), decide_eq_false hneg]
    rfl

/-- What the rounded significand carries fits the exponent field. -/
theorem exp_add_carry_lt (hsig : sig < fmt.top) (hov : ¬ Overflows fmt s rm exp sig) :
    exp.toNat + roundedSig fmt s rm (denormSig fmt exp sig) / 2 ^ fmt.t < fmt.expMax := by
  have hmin : 3 ≤ fmt.expMax := by cases fmt <;> decide
  have hp : 2 ^ fmt.p = 2 ^ fmt.t * 2 := pow_succ 2 fmt.t
  have hcarry := Nat.div_le_of_le_mul (hp ▸ roundedSig_le s rm (denormSig_lt (exp := exp) hsig))
  unfold Overflows at hov
  obtain he | he : exp < fmt.expMax - 2 ∨ exp = fmt.expMax - 2 := by omega
  · omega
  · have hlt : roundedSig fmt s rm sig < 2 ^ fmt.t * 2 := by
      rw [← hp, ← not_le, two_pow_p_le_roundedSig_iff]
      exact fun htop => hov (.inr ⟨he, htop⟩)
    have hone := Nat.div_lt_of_lt_mul hlt
    rw [denormSig_of_nonneg (by omega)]
    omega

end Significand

section Values
variable {fmt : Fmt} {s : Bool} {n : Nat} {K : Type} [Field K]

/-- A significand over the width of the fraction adds to the exponent field (40_bit_pack_unpack.md R82). -/
theorem pack_carry (fmt : Fmt) (s : Bool) (e n : Nat) :
    pack fmt s e n = pack fmt s (e + n / 2 ^ fmt.t : Nat) (n % 2 ^ fmt.t) := by
  have hn : (n : Int) = 2 ^ fmt.t * (n / 2 ^ fmt.t : Nat) + (n % 2 ^ fmt.t : Nat) := by
    exact_mod_cast (Nat.div_add_mod n (2 ^ fmt.t)).symm
  rw [pack, pack]
  congr 1
  rw [hn]
  push_cast
  ring

variable [LinearOrder K] [IsStrictOrderedRing K]

/-- The pattern of a rounded significand, a carry out of it included, has the value of the significand. -/
theorem pack_value {e : Nat} (hn : n ≤ 2 ^ fmt.p) (hnorm : e = 0 ∨ 2 ^ fmt.t ≤ n)
    (hmax : e + n / 2 ^ fmt.t < fmt.expMax) :
    isFinite fmt (pack fmt s e n) = true ∧ signOf fmt (pack fmt s e n) = s ∧
      magOf K fmt (pack fmt s e n) = (n : K) * 2 ^ (e + fmt.emin - fmt.t) := by
  obtain ⟨hs, he, hf⟩ := fields_pack (s := s) hmax.le (Nat.mod_lt n (Nat.two_pow_pos fmt.t))
  rw [← pack_carry] at hs he hf
  refine ⟨by simp [isFinite, he, hmax], hs, ?_⟩
  have hp : 2 ^ fmt.p = 2 ^ fmt.t * 2 := pow_succ 2 fmt.t
  have hcarry : n / 2 ^ fmt.t ≤ 2 := Nat.div_le_of_le_mul (hp ▸ hn)
  have hdiv := Nat.div_add_mod n (2 ^ fmt.t)
  have hfrac := Nat.mod_lt n (Nat.two_pow_pos fmt.t)
  simp only [magOf, unpack, he, hf, Fmt.emin]
  obtain hc | hc | hc : n / 2 ^ fmt.t = 0 ∨ n / 2 ^ fmt.t = 1 ∨ n / 2 ^ fmt.t = 2 := by
    interval_cases n / 2 ^ fmt.t <;> decide
  · rw [hc, mul_zero, zero_add] at hdiv
    have he0 : e = 0 := by omega
    simp [he0, hc, hdiv]
  · rw [hc, mul_one] at hdiv
    have hq : ((e + 1 : Nat) : Int) - fmt.bias - fmt.t = e + (1 - fmt.bias) - fmt.t := by push_cast; ring
    rw [if_neg (by omega), hc, hdiv, hq]
  · have hn : n = 2 ^ fmt.t * 2 := by rw [hc] at hdiv; omega
    have hf : n % 2 ^ fmt.t = 0 := by rw [hn, Nat.mul_mod_right]
    have hq : ((e + 2 : Nat) : Int) - fmt.bias - fmt.t = e + (1 - fmt.bias) - fmt.t + 1 := by push_cast; ring
    rw [if_neg (by omega), hc, hf, hq, zpow_add_one₀ two_ne_zero, hn]
    push_cast
    ring

/-- The two ends of the binade of exponent `i`, in units of its last place. -/
theorem two_pow_t_mul_unit (fmt : Fmt) (i : Int) : ((2 ^ fmt.t : Nat) : K) * 2 ^ (i - fmt.t) = 2 ^ i := by
  rw [Nat.cast_pow, Nat.cast_ofNat, ← zpow_natCast, ← zpow_add₀ two_ne_zero, add_sub_cancel]

theorem two_pow_p_mul_unit (fmt : Fmt) (i : Int) : ((2 ^ fmt.p : Nat) : K) * 2 ^ (i - fmt.t) = 2 ^ (i + 1) := by
  rw [Fmt.p, pow_succ', Nat.cast_mul, mul_assoc, two_pow_t_mul_unit, zpow_add_one₀ two_ne_zero, mul_comm,
    Nat.cast_ofNat]

theorem mul_unit_le (hhi : n ≤ 2 ^ fmt.p) (i : Int) : (n : K) * 2 ^ (i - fmt.t) ≤ 2 ^ (i + 1) := by
  rw [← two_pow_p_mul_unit fmt]
  gcongr

/-- A rounded significand reaches a power of two by its exponent, or by a carry. -/
theorem two_zpow_le_mul_unit_iff (hlo : 2 ^ fmt.t ≤ n) (hhi : n ≤ 2 ^ fmt.p) (i j : Int) :
    (2 : K) ^ j ≤ n * 2 ^ (i - fmt.t) ↔ j ≤ i ∨ j = i + 1 ∧ 2 ^ fmt.p ≤ n := by
  obtain hji | rfl | hji : j ≤ i ∨ j = i + 1 ∨ i + 1 < j := by omega
  · refine iff_of_true ?_ (.inl hji)
    calc (2 : K) ^ j ≤ 2 ^ i := zpow_le_zpow_right₀ one_le_two hji
      _ = (2 ^ fmt.t : Nat) * 2 ^ (i - fmt.t) := (two_pow_t_mul_unit fmt i).symm
      _ ≤ n * 2 ^ (i - fmt.t) := by gcongr
  · rw [← two_pow_p_mul_unit fmt, mul_le_mul_iff_of_pos_right (by positivity), Nat.cast_le]
    simp
  · refine iff_of_false (not_le.mpr ?_) (by omega)
    exact (mul_unit_le hhi i).trans_lt (zpow_lt_zpow_right₀ one_lt_two hji)

theorem maxFinValue_eq (fmt : Fmt) :
    maxFinValue K fmt = ((2 ^ fmt.p - 1 : Nat) : K) * 2 ^ (fmt.emax - fmt.t) := by
  have hulp : 1 - (fmt.p : Int) + fmt.emax = fmt.emax - fmt.t := by rw [Fmt.p]; push_cast; ring
  rw [Nat.cast_sub Nat.one_le_two_pow, sub_mul, two_pow_p_mul_unit, maxFinValue, sub_mul, ← zpow_add₀ two_ne_zero, hulp,
    zpow_add_one₀ two_ne_zero, mul_comm (2 : K), Nat.cast_one, one_mul]

/-- A rounded significand passes `maxfin` by its exponent, or by a carry out of the last binade. -/
theorem maxFinValue_lt_mul_unit_iff (hlo : 2 ^ fmt.t ≤ n) (hhi : n ≤ 2 ^ fmt.p) (i : Int) :
    maxFinValue K fmt < n * 2 ^ (i - fmt.t) ↔ fmt.emax < i ∨ i = fmt.emax ∧ 2 ^ fmt.p ≤ n := by
  have hp : 2 ^ fmt.t ≤ 2 ^ fmt.p - 1 ∧ 2 ^ fmt.p - 1 < 2 ^ fmt.p := by cases fmt <;> decide
  have hunit : (0 : K) < 2 ^ (fmt.emax - fmt.t) := by positivity
  rw [maxFinValue_eq]
  obtain hi | rfl | hi := lt_trichotomy i fmt.emax
  · refine iff_of_false (not_lt.mpr ?_) (by omega)
    calc (n : K) * 2 ^ (i - fmt.t) ≤ 2 ^ (i + 1) := mul_unit_le hhi i
      _ ≤ ((2 ^ fmt.p - 1 : Nat) : K) * 2 ^ (fmt.emax - fmt.t) :=
        (two_zpow_le_mul_unit_iff hp.1 hp.2.le _ _).mpr (.inl hi)
  · rw [mul_lt_mul_iff_of_pos_right hunit, Nat.cast_lt]
    omega
  · refine iff_of_true ?_ (.inl hi)
    calc ((2 ^ fmt.p - 1 : Nat) : K) * 2 ^ (fmt.emax - fmt.t) < (2 ^ fmt.p : Nat) * 2 ^ (fmt.emax - fmt.t) :=
        mul_lt_mul_of_pos_right (Nat.cast_lt.mpr hp.2) hunit
      _ = 2 ^ (fmt.emax + 1) := two_pow_p_mul_unit fmt _
      _ ≤ n * 2 ^ (i - fmt.t) := (two_zpow_le_mul_unit_iff hlo hhi i _).mpr (.inl hi)

end Values

section Engine
variable {fmt : Fmt} {exp : Int} {sig : Nat} {K : Type} [Field K] [LinearOrder K] [IsStrictOrderedRing K] [FloorRing K]
  {x : K}

/-- Half a last place is even, so the round bits decide as the magnitude does (R105 (c)). -/
theorem ComparesLike.roundsFrom_roundBits {q : Int} (h : ComparesLike 2 sig (x / 2 ^ (q - fmt.g))) :
    RoundsFrom (x / 2 ^ q) (sig / 2 ^ fmt.g) (sig % 2 ^ fmt.g) fmt.half := by
  have hunit : x / 2 ^ (q - fmt.g) / (2 ^ fmt.g : Nat) = x / 2 ^ q := by
    rw [Nat.cast_pow, Nat.cast_ofNat, ← zpow_natCast, div_div, ← zpow_add₀ two_ne_zero, sub_add_cancel]
  rw [← hunit, ← two_mul_half]
  exact (h.of_dvd (two_dvd_half fmt)).roundsFrom (half_pos fmt)

/-- R131's steps 4 and 5 give the pattern of the magnitude rounded to the last place of the exponent, and `NX` when that
changed it. -/
theorem roundFinish_value {s : Bool} {rm : RoundingMode} {e : Nat}
    (h : ComparesLike 2 sig (x / 2 ^ (e + fmt.emin - fmt.t - fmt.g))) (hsig : sig < fmt.top)
    (hnorm : e = 0 ∨ fmt.top ≤ 2 * sig) (hmax : e + roundedSig fmt s rm sig / 2 ^ fmt.t < fmt.expMax) (fl : FlagSet) :
    let r := roundFinish fmt s e sig rm fl
    isFinite fmt r.1 = true ∧ signOf fmt r.1 = s ∧ magOf K fmt r.1 = rnd s rm x (e + fmt.emin - fmt.t) ∧
      r.2 = fl ||| flagIf (sig % 2 ^ fmt.g != 0) NX := by
  have hn : e = 0 ∨ 2 ^ fmt.t ≤ roundedSig fmt s rm sig := hnorm.imp_right (le_roundedSig s rm)
  have hexp : (if roundedSig fmt s rm sig = 0 then 0 else (e : Int)) = e := by
    have := Nat.two_pow_pos fmt.t
    split_ifs <;> omega
  obtain ⟨hfin, hsign, hmag⟩ := pack_value (K := K) (s := s) (roundedSig_le s rm hsig) hn hmax
  dsimp only
  rw [roundFinish_eq, hexp]
  exact ⟨hfin, hsign, hmag.trans (h.roundsFrom_roundBits.rnd_eq s rm).symm, rfl⟩

/-- R130: the pair stands for the magnitude `x`, normalised; the unit of `sig` is `2^(exp - bias - (k-3))`. -/
structure EngineInput (fmt : Fmt) (exp : Int) (sig : Nat) (x : K) : Prop where
  pos : 0 < x
  log_eq : Int.log 2 x = exp + fmt.emin
  reads : ComparesLike 2 sig (x / 2 ^ (exp + fmt.emin - fmt.t - fmt.g))

namespace EngineInput
variable (h : EngineInput fmt exp sig x) (s : Bool) (rm : RoundingMode) (tm : Tininess)
include h

/-- The leading 1 is in bit `k - 2`. -/
theorem sig_bounds : fmt.top ≤ 2 * sig ∧ sig < fmt.top := by
  have hlo : (2 : K) ^ (exp + fmt.emin) ≤ x := h.log_eq ▸ Int.zpow_log_le_self one_lt_two h.pos
  have hhi : x < (2 : K) ^ (exp + fmt.emin + 1) := h.log_eq ▸ Int.lt_zpow_succ_log_self one_lt_two x
  have hpos : (0 : K) < 2 ^ (exp + fmt.emin - fmt.t - fmt.g) := by positivity
  have hlead : ((2 ^ (fmt.t + fmt.g) : Nat) : K) * 2 ^ (exp + fmt.emin - fmt.t - fmt.g) = 2 ^ (exp + fmt.emin) := by
    rw [Nat.cast_pow, Nat.cast_ofNat, ← zpow_natCast, ← zpow_add₀ two_ne_zero, Nat.cast_add, sub_sub, add_sub_cancel]
  have heven : 2 ∣ 2 ^ (fmt.t + fmt.g) := by cases fmt <;> decide
  rw [top_eq]
  constructor
  · refine Nat.mul_le_mul_left 2 ((h.reads _ heven).1.mpr ?_)
    rwa [le_div_iff₀ hpos, hlead]
  · refine (h.reads.gt_iff (Nat.dvd_mul_right ..)).mpr ?_
    rwa [div_lt_iff₀ hpos, Nat.cast_mul, mul_assoc, hlead, Nat.cast_ofNat, mul_comm, ← zpow_add_one₀ two_ne_zero]

theorem rndUnbounded_eq :
    rndUnbounded fmt s rm x = roundedSig fmt s rm sig * 2 ^ (exp + fmt.emin - fmt.t) := by
  have hq : exp + fmt.emin - ((fmt.p : Int) - 1) = exp + fmt.emin - fmt.t := by simp [Fmt.p]
  rw [rndUnbounded, h.log_eq, hq, h.reads.roundsFrom_roundBits.rnd_eq, roundedSig]

theorem overflow_iff : maxFinValue K fmt < rndUnbounded fmt s rm x ↔ Overflows fmt s rm exp sig := by
  have hemax : fmt.emax = fmt.expMax - 2 + fmt.emin := by cases fmt <;> rfl
  obtain ⟨hlo, hhi⟩ := h.sig_bounds
  rw [h.rndUnbounded_eq, maxFinValue_lt_mul_unit_iff (le_roundedSig s rm hlo) (roundedSig_le s rm hhi),
    two_pow_p_le_roundedSig_iff, Overflows]
  omega

/-- R134: a magnitude is tiny before rounding by its exponent, after rounding unless it carries to `2^emin`. -/
theorem tinyValue_eq : tinyValue fmt s rm tm x = (decide (exp < 0) && isTiny fmt s exp sig rm tm) := by
  cases tm with
  | before =>
    have hlog := Int.lt_zpow_iff_log_lt one_lt_two h.pos (x := fmt.emin)
    rw [h.log_eq, Nat.cast_ofNat] at hlog
    simp [tinyValue, isTiny, hlog]
  | after =>
    obtain ⟨hlo, hhi⟩ := h.sig_bounds
    have hreach := two_zpow_le_mul_unit_iff (K := K) (le_roundedSig s rm hlo) (roundedSig_le s rm hhi) (exp + fmt.emin)
      fmt.emin
    rw [two_pow_p_le_roundedSig_iff, ← h.rndUnbounded_eq] at hreach
    have htiny : rndUnbounded fmt s rm x < 2 ^ fmt.emin ↔
        exp < 0 ∧ (exp < -1 ∨ sig + roundInc fmt s rm < fmt.top) := by
      rw [← not_le, hreach]
      omega
    simp [tinyValue, isTiny, htiny, show (Tininess.after == Tininess.before) = false from rfl]

theorem denormSig_normalised : exp.toNat = 0 ∨ fmt.top ≤ 2 * denormSig fmt exp sig := by
  obtain he | he := le_or_gt exp 0
  · exact .inl (Int.toNat_of_nonpos he)
  · exact .inr (denormSig_of_nonneg he.le ▸ h.sig_bounds.1)

theorem denormSig_reads : ComparesLike 2 (denormSig fmt exp sig) (x / 2 ^ (exp.toNat + fmt.emin - fmt.t - fmt.g)) := by
  have hunit : x / 2 ^ (exp + fmt.emin - fmt.t - fmt.g) / 2 ^ (-exp).toNat =
      x / 2 ^ (exp.toNat + fmt.emin - fmt.t - fmt.g) := by
    rw [div_div, ← zpow_natCast, ← zpow_add₀ two_ne_zero]
    congr 2
    omega
  exact hunit ▸ h.reads.jam _ (lt_two_pow_k_of_lt_top h.sig_bounds.2)

/-- R137 for the engine itself. -/
theorem correctlyRounded_roundPack : CorrectlyRounded fmt s x rm tm (roundPack fmt s exp sig rm tm) := by
  unfold CorrectlyRounded
  split_ifs with hov <;> rw [h.overflow_iff] at hov
  · exact roundPack_of_overflows hov
  · have hgrid : rndBounded fmt s rm x = rnd s rm x (exp.toNat + fmt.emin - fmt.t) := by
      rw [rndBounded, h.log_eq, Fmt.p]
      congr 1
      omega
    have hlost : (denormSig fmt exp sig % 2 ^ fmt.g != 0) =
        decide (rnd s rm x (exp.toNat + fmt.emin - fmt.t) ≠ x) := by
      simp only [bne, Bool.beq_eq_decide_eq, Ne, h.denormSig_reads.roundsFrom_roundBits.rnd_eq_self_iff, decide_not]
    obtain ⟨hfin, hsign, hmag, hflags⟩ := roundFinish_value h.denormSig_reads (denormSig_lt h.sig_bounds.2)
      h.denormSig_normalised (exp_add_carry_lt h.sig_bounds.2 hov)
      (flagIf ((decide (exp < 0) && isTiny fmt s exp sig rm tm) && denormSig fmt exp sig % 2 ^ fmt.g != 0) UF)
    rw [roundPack_of_not_overflows hov, hgrid, h.tinyValue_eq]
    refine ⟨hfin, hsign, hmag, hflags.trans ?_⟩
    rw [hlost, BitVec.or_comm, Bool.decide_and, Bool.and_comm, Bool.decide_eq_true]

end EngineInput
end Engine

section Bridge
variable {fmt : Fmt} {m : Nat} {e : Int} {K : Type} [Field K] [LinearOrder K] [IsStrictOrderedRing K] [FloorRing K]
  {x : K}

/-- The significand R136 hands to the engine. -/
def bridgeSig (fmt : Fmt) (m : Nat) (sticky : Bool) : Nat :=
  if fmt.k - 1 ≤ bitlen m then
    m >>> (bitlen m - (fmt.k - 1)) ||| jamBit (m % 2 ^ (bitlen m - (fmt.k - 1)) != 0 || sticky)
  else m <<< (fmt.k - 1 - bitlen m)

/-- The exponent R136 hands to the engine. -/
def bridgeExp (fmt : Fmt) (m : Nat) (e : Int) : Int :=
  e + ((bitlen m : Int) - (fmt.k - 1 : Nat)) + fmt.bias + (fmt.k - 3)

theorem roundExact_eq_roundPack_bridge (s : Bool) (sticky : Bool) (rm : RoundingMode) (tm : Tininess) :
    roundExact fmt s m sticky e rm tm = roundPack fmt s (bridgeExp fmt m e) (bridgeSig fmt m sticky) rm tm := rfl

theorem bridgeSig_exact (hlen : fmt.k - 1 ≤ bitlen m) :
    bridgeSig fmt m false = shiftRightJam (bitlen m) m (bitlen m - (fmt.k - 1)) := by
  rw [bridgeSig, if_pos hlen, Bool.or_false, Nat.shiftRight_eq_div_pow, shiftRightJam_eq _ (lt_two_pow_bitlen m)]

/-- A sticky bit is a 1 below the magnitude's last place. -/
theorem bridgeSig_sticky (hlen : fmt.k - 1 ≤ bitlen m) :
    bridgeSig fmt m true = shiftRightJam (bitlen m + 1) (2 * m + 1) (bitlen m - (fmt.k - 1) + 1) := by
  have hlt := lt_two_pow_bitlen m
  have hodd : (2 * m + 1) % 2 ^ (bitlen m - (fmt.k - 1) + 1) ≠ 0 := by
    intro h
    have := Nat.mod_mod_of_dvd (2 * m + 1) (Dvd.intro_left _ (pow_succ 2 (bitlen m - (fmt.k - 1))).symm)
    omega
  have hquot : (2 * m + 1) / 2 ^ (bitlen m - (fmt.k - 1) + 1) = m / 2 ^ (bitlen m - (fmt.k - 1)) := by
    rw [pow_succ', ← Nat.div_div_eq_div_mul]
    congr 1
    omega
  rw [shiftRightJam_eq _ (by rw [pow_succ]; omega), bne_iff_ne.mpr hodd, hquot, bridgeSig, if_pos hlen, Bool.or_true,
    Nat.shiftRight_eq_div_pow]

/-- A magnitude between `m` and its successor has the leading bit of `m`. -/
theorem log_eq_of_bitlen (h0 : 0 < m) (hlo : (m : K) * 2 ^ e ≤ x) (hhi : x < (m + 1) * 2 ^ e) :
    Int.log 2 x = e + bitlen m - 1 := by
  have hx : 0 < x := hlo.trans_lt' (by positivity)
  have hlen := bitlen_pos h0
  have hlow : ((2 ^ (bitlen m - 1) : Nat) : K) ≤ m := Nat.cast_le.mpr (two_pow_bitlen_le h0)
  have hhigh : (m : K) + 1 ≤ (2 ^ bitlen m : Nat) := by exact_mod_cast lt_two_pow_bitlen m
  have hpow (n : Nat) : ((2 ^ n : Nat) : K) * 2 ^ e = ((2 : Nat) : K) ^ (e + n) := by
    rw [zpow_add₀ (by norm_num), zpow_natCast, mul_comm]
    push_cast
    rfl
  have hge : e + (bitlen m - 1 : Nat) ≤ Int.log 2 x := by
    rw [← Int.zpow_le_iff_le_log one_lt_two hx, ← hpow]
    exact hlo.trans' (by gcongr)
  have hlt : Int.log 2 x < e + bitlen m := by
    rw [← Int.lt_zpow_iff_log_lt one_lt_two hx, ← hpow]
    exact hhi.trans_le (by gcongr)
  omega

/-- The exact magnitude of R136, or one that its sticky bit stands for. -/
def BridgeMagnitude (fmt : Fmt) (m : Nat) (sticky : Bool) (e : Int) (x : K) : Prop :=
  if sticky then (m : K) * 2 ^ e < x ∧ x < ((m : K) + 1) * 2 ^ e ∧ fmt.k - 1 ≤ bitlen m else x = (m : K) * 2 ^ e

theorem bridgeSig_reads {sticky : Bool} (hx : BridgeMagnitude fmt m sticky e x) :
    ComparesLike 2 (bridgeSig fmt m sticky) (x / 2 ^ (e + bitlen m - (fmt.k - 1 : Nat))) := by
  have hpos : (0 : K) < 2 ^ e := by positivity
  have hlt := lt_two_pow_bitlen m
  cases sticky with
  | true =>
    obtain ⟨hlo, hhi, hlen⟩ := hx
    have hodd := comparesLike_of_between ((lt_div_iff₀ hpos).mpr hlo) ((div_lt_iff₀ hpos).mpr hhi)
    have hunit : 2 * (x / 2 ^ e) / 2 ^ (bitlen m - (fmt.k - 1) + 1) = x / 2 ^ (e + bitlen m - (fmt.k - 1 : Nat)) := by
      rw [pow_succ', mul_div_mul_left _ _ two_ne_zero, div_div, ← zpow_natCast, ← zpow_add₀ two_ne_zero]
      congr 2
      omega
    rw [bridgeSig_sticky hlen, ← hunit]
    exact hodd.jam _ (by rw [pow_succ]; omega)
  | false =>
    obtain rfl : x = m * 2 ^ e := hx
    obtain hlen | hlen := le_or_gt (fmt.k - 1) (bitlen m)
    · have hunit : (m : K) * 2 ^ e / 2 ^ (e + bitlen m - (fmt.k - 1 : Nat)) = m / 2 ^ (bitlen m - (fmt.k - 1)) := by
        rw [← div_div_eq_mul_div, ← zpow_sub₀ two_ne_zero, ← zpow_natCast]
        congr 2
        omega
      rw [bridgeSig_exact hlen, hunit]
      exact (comparesLike_self 2 m).jam _ hlt
    · have hunit : (m : K) * 2 ^ e / 2 ^ (e + bitlen m - (fmt.k - 1 : Nat)) =
          (m * 2 ^ (fmt.k - 1 - bitlen m) : Nat) := by
        rw [mul_div_assoc, ← zpow_sub₀ two_ne_zero, Nat.cast_mul, Nat.cast_pow, Nat.cast_ofNat, ← zpow_natCast]
        congr 2
        omega
      rw [bridgeSig, if_neg (not_le.mpr hlen), Nat.shiftLeft_eq, hunit]
      exact comparesLike_self 2 _

theorem bridge_engineInput {sticky : Bool} (h0 : 0 < m) (hx : BridgeMagnitude fmt m sticky e x) :
    EngineInput fmt (bridgeExp fmt m e) (bridgeSig fmt m sticky) x := by
  have hpos : (0 : K) < 2 ^ e := by positivity
  have hbounds : (m : K) * 2 ^ e ≤ x ∧ x < (m + 1) * 2 ^ e := by
    cases sticky with
    | true =>
      obtain ⟨hlo, hhi, -⟩ := hx
      exact ⟨hlo.le, hhi⟩
    | false =>
      obtain rfl : x = m * 2 ^ e := hx
      exact ⟨le_rfl, by gcongr; simp⟩
  have hlog : bridgeExp fmt m e + fmt.emin = e + bitlen m - 1 := by
    rw [bridgeExp, Fmt.emin]
    cases fmt <;> simp <;> omega
  have hunit : bridgeExp fmt m e + fmt.emin - fmt.t - fmt.g = e + bitlen m - (fmt.k - 1 : Nat) := by
    rw [hlog]
    cases fmt <;> simp [Fmt.g, Fmt.t, Fmt.p] <;> omega
  exact ⟨hbounds.1.trans_lt' (by positivity), hlog ▸ log_eq_of_bitlen h0 hbounds.1 hbounds.2,
    hunit ▸ bridgeSig_reads hx⟩

end Bridge

/-- Settles O29: the bridge hands the engine the magnitude in the convention of R130. -/
theorem roundExactIsCorrectRounding : Obligations.RoundExactIsCorrectRounding := by
  intro K _ _ _ _ fmt s m sticky e rm tm x h0 hx
  rw [roundExact_eq_roundPack_bridge]
  exact (bridge_engineInput h0 hx).correctlyRounded_roundPack s rm tm

end Sys2Proof.Machine
end

section
/-! The registers and the requests that write them (44_nan_and_flag_logic.md R166, R168, R170 to R173). -/

namespace Sys2Proof.Machine

/-- Settles O12: the mode stands in the rounding of a kernel's last branch only, where it moves the underflow bit. -/
theorem kernelRequestOnlyMergesFlags : Obligations.KernelRequestOnlyMergesFlags :=
  fun _ hk => kernel_respondsByMode hk

/-- Settles O16: of the requests only `ctx_init` writes the mode, and it clears `FLAGS` with it. -/
theorem ctxInit : Obligations.CtxInit :=
  ⟨fun _ _ _ => rfl, fun _ _ _ h hne => (exec_changes_tininess h hne).1⟩

/-- Settles O17: of the requests only the two that write `FLAGS` anew clear a flag, and they write it empty. -/
theorem flagsReset : Obligations.FlagsReset := by
  refine ⟨fun _ _ _ => rfl, fun i s t k h hs ht => ?_⟩
  obtain ⟨spare, ops, rfl | rfl⟩ := exec_clears_flag h hs ht <;> cases h
  · rfl
  · rfl

/-- Settles O18: widening `FLAGS` keeps its bits and puts zeros above them. -/
theorem flagsRead : Obligations.FlagsRead := by
  intro spare ops s
  have hbit : ∀ k, (s.flags.setWidth 64).getLsbD k = (decide (k < 64) && s.flags.getLsbD k) := fun k =>
    BitVec.getLsbD_setWidth ..
  refine ⟨s.flags.setWidth 64, rfl, hbit 0, hbit 1, hbit 2, hbit 3, hbit 4, fun k hk => ?_⟩
  rw [hbit, BitVec.getLsbD_of_ge _ _ hk, Bool.and_false]

end Sys2Proof.Machine
end

section
/-! The classes of special operands exclude each other (40_bit_pack_unpack.md R86), so a fact about one class decides
every test of a kernel's case analysis. -/

namespace Sys2Proof.Machine

section Exclusions
variable {fmt : Fmt} {a : Pat fmt}

theorem expMax_pos (fmt : Fmt) : 0 < fmt.expMax := by cases fmt <;> decide

theorem isInf_excludes (h : isInf fmt a = true) :
    isNaN fmt a = false ∧ isZero fmt a = false ∧ isFinite fmt a = false := by
  simp only [isNaN, isInf, isZero, isFinite, Bool.and_eq_true, beq_iff_eq] at h ⊢
  simp [h, (expMax_pos fmt).ne']

theorem isFinite_excludes (h : isFinite fmt a = true) : isNaN fmt a = false ∧ isInf fmt a = false := by
  simp only [isNaN, isInf, isFinite, decide_eq_true_eq] at h ⊢
  simp [h.ne]

theorem isFinite_of_isZero (h : isZero fmt a = true) : isFinite fmt a = true := by
  simp only [isZero, isFinite, Bool.and_eq_true, beq_iff_eq, decide_eq_true_eq] at h ⊢
  exact h.1 ▸ expMax_pos fmt

theorem isZero_excludes (h : isZero fmt a = true) : isNaN fmt a = false ∧ isInf fmt a = false :=
  isFinite_excludes (isFinite_of_isZero h)

theorem isFinite_of_not_isNaN_not_isInf (hn : isNaN fmt a = false) (hi : isInf fmt a = false) :
    isFinite fmt a = true := by
  simp only [isFinite, decide_eq_true_eq]
  refine (expOf_le_expMax fmt a).lt_of_ne fun he => ?_
  cases hf : fracOf fmt a == 0 <;> simp [isNaN, isInf, he, hf, bne] at hn hi

theorem isSigNaN_of_not_isNaN (h : isNaN fmt a = false) : isSigNaN fmt a = false := by
  rw [isSigNaN_eq, h, Bool.false_and]

/-- An infinity is its sign. -/
theorem eq_infPat_of_isInf (h : isInf fmt a = true) : a = infPat fmt (signOf fmt a) := by
  simp only [isInf, Bool.and_eq_true, beq_iff_eq] at h
  obtain ⟨he, hf⟩ := h
  rw [infPat, ← he, ← hf, pack_fields]

theorem negPat_infPat (fmt : Fmt) (s : Bool) : negPat fmt (infPat fmt s) = infPat fmt (!s) := by
  cases fmt <;> cases s <;> decide

end Exclusions

end Sys2Proof.Machine
end

section
/-! What a request answers is its kernel's result: one equation for each family of requests that a statement names. -/

namespace Sys2Proof.Machine

theorem answers_of_exec {i : Instr} {s : State} {n : Nat} {r : BitVec n × FlagSet} {z : BitVec n} {fl : FlagSet}
    (hi : exec i s = s.finishPattern r) (hr : r = (z, fl)) : Answers i s (zext z) fl := by
  rw [Answers, hi, hr]
  rfl

variable (fmt : Fmt) (rm : RoundingMode) (exact : Bool) (ops : Operands) (s : State)

theorem exec_addSubInstr (neg : Bool) : exec (addSubInstr fmt neg rm exact ops) s =
    s.finishPattern (addSub fmt neg (patOf fmt ops.a) (patOf fmt ops.b) rm s.tininess) := by
  cases fmt <;> cases neg <;> rfl

theorem exec_mulInstr : exec (mulInstr fmt rm exact ops) s =
    s.finishPattern (mul fmt (patOf fmt ops.a) (patOf fmt ops.b) rm s.tininess) := by cases fmt <;> rfl

theorem exec_mulAddInstr : exec (mulAddInstr fmt rm exact ops) s =
    s.finishPattern (mulAdd config fmt (patOf fmt ops.a) (patOf fmt ops.b) (patOf fmt ops.c) rm s.tininess) := by
  cases fmt <;> rfl

theorem exec_divInstr : exec (divInstr fmt rm exact ops) s =
    s.finishPattern (div fmt (patOf fmt ops.a) (patOf fmt ops.b) rm s.tininess) := by cases fmt <;> rfl

theorem exec_remInstr : exec (remInstr fmt rm exact ops) s =
    s.finishPattern (rem fmt (patOf fmt ops.a) (patOf fmt ops.b)) := by cases fmt <;> rfl

theorem exec_sqrtInstr : exec (sqrtInstr fmt rm exact ops) s =
    s.finishPattern (sqrt fmt (patOf fmt ops.a) rm s.tininess) := by cases fmt <;> rfl

theorem exec_roundToIntInstr : exec (roundToIntInstr fmt rm exact ops) s =
    s.finishPattern (roundToInt config fmt (patOf fmt ops.a) rm exact) := by cases fmt <;> rfl

theorem exec_fromFloatInstr : exec (fromFloatInstr fmt rm exact ops) s =
    s.finishPattern (floatToFloat fmt fmt.other (patOf fmt ops.a) rm s.tininess) := by cases fmt <;> rfl

end Sys2Proof.Machine
end

section
/-! The kernels on special operands (44_nan_and_flag_logic.md R150 to R154, R163): each equation is one branch of its
kernel's case analysis, reached because the classes exclude each other. -/

namespace Sys2Proof.Machine

variable {fmt : Fmt} {a b c : Pat fmt} (rm : RoundingMode) (tm : Tininess)

theorem flagIf_NV_eq_nvIf {c : Bool} {p : Prop} [Decidable p] (h : c = true ↔ p) : flagIf c NV = nvIf p := by
  simp only [flagIf, nvIf, h]
  rfl

theorem nvIf_congr {p q : Prop} [Decidable p] [Decidable q] (h : p ↔ q) : nvIf p = nvIf q := by
  simp only [nvIf, h]

theorem nanResult_eq {ops : List (Pat fmt)} {p : Prop} [Decidable p] (h : ops.any (isSigNaN fmt) = true ↔ p) :
    nanResult fmt ops = (cnan fmt, nvIf p) := by
  rw [nanResult, flagIf_NV_eq_nvIf h]

/-! ## NaN operands -/

theorem addSub_of_isNaN (neg : Bool) (h : isNaN fmt a ∨ isNaN fmt b) :
    addSub fmt neg a b rm tm = (cnan fmt, nvIf (isSigNaN fmt a ∨ isSigNaN fmt b)) := by
  rw [addSub, if_pos (by simpa using h)]
  exact nanResult_eq (by simp)

theorem mul_of_isNaN (h : isNaN fmt a ∨ isNaN fmt b) :
    mul fmt a b rm tm = (cnan fmt, nvIf (isSigNaN fmt a ∨ isSigNaN fmt b)) := by
  rw [mul, if_pos (by simpa using h)]
  exact nanResult_eq (by simp)

theorem div_of_isNaN (h : isNaN fmt a ∨ isNaN fmt b) :
    div fmt a b rm tm = (cnan fmt, nvIf (isSigNaN fmt a ∨ isSigNaN fmt b)) := by
  rw [div, if_pos (by simpa using h)]
  exact nanResult_eq (by simp)

theorem rem_of_isNaN (h : isNaN fmt a ∨ isNaN fmt b) :
    rem fmt a b = (cnan fmt, nvIf (isSigNaN fmt a ∨ isSigNaN fmt b)) := by
  rw [rem, if_pos (by simpa using h)]
  exact nanResult_eq (by simp)

theorem sqrt_of_isNaN (h : isNaN fmt a) : sqrt fmt a rm tm = (cnan fmt, nvIf (isSigNaN fmt a)) := by
  rw [sqrt, if_pos h]
  exact nanResult_eq (by simp)

theorem roundToInt_of_isNaN (cfg : Config) (exact : Bool) (h : isNaN fmt a) :
    roundToInt cfg fmt a rm exact = (cnan fmt, nvIf (isSigNaN fmt a)) := by
  rw [roundToInt, if_pos h]
  exact nanResult_eq (by simp)

theorem floatToFloat_of_isNaN (dst : Fmt) (h : isNaN fmt a) :
    floatToFloat fmt dst a rm tm = (cnan dst, nvIf (isSigNaN fmt a)) := by
  rw [floatToFloat, if_pos h, flagIf_NV_eq_nvIf Iff.rfl]

theorem zeroTimesInf_iff : zeroTimesInf fmt a b ↔ (isZero fmt a ∧ isInf fmt b) ∨ (isInf fmt a ∧ isZero fmt b) := by
  simp [zeroTimesInf, or_comm]

theorem not_isNaN_of_zeroTimesInf (h : zeroTimesInf fmt a b = true) : isNaN fmt a = false ∧ isNaN fmt b = false := by
  obtain ⟨hz, hi⟩ | ⟨hi, hz⟩ := zeroTimesInf_iff.mp h
  · exact ⟨(isZero_excludes hz).1, (isInf_excludes hi).1⟩
  · exact ⟨(isInf_excludes hi).1, (isZero_excludes hz).1⟩

theorem flagIf_or (p q : Bool) (fl : FlagSet) : flagIf p fl ||| flagIf q fl = flagIf (p || q) fl := by
  cases p <;> cases q <;> simp [flagIf, noFlags]

theorem mulAdd_of_isNaN (cfg : Config) (h : isNaN fmt a ∨ isNaN fmt b ∨ isNaN fmt c) :
    mulAdd cfg fmt a b c rm tm =
      (cnan fmt, nvIf ((isSigNaN fmt a ∨ isSigNaN fmt b ∨ isSigNaN fmt c) ∨
        zeroTimesInf fmt a b ∧ cfg.fmaInvalidZeroInfQNaN = true)) := by
  rw [mulAdd, if_pos (by simpa [or_assoc] using h)]
  refine Prod.ext rfl ?_
  dsimp only [nanResult]
  rw [flagIf_or]
  exact flagIf_NV_eq_nvIf (by simp)

/-- Settles O31: a NaN takes each kernel's first branch. -/
theorem naNOperands : Obligations.NaNOperands := by
  intro fmt rm exact ops s a b c zi
  refine ⟨fun h => ?_, fun h => ⟨?_, ?_⟩, fun h => ⟨?_, fun cfg tm hquiet hzi => ?_⟩⟩
  · simp only [List.forall_mem_cons, List.not_mem_nil, false_imp_iff, implies_true, and_true]
    exact ⟨answers_of_exec (exec_addSubInstr ..) (addSub_of_isNaN _ _ false h),
      answers_of_exec (exec_addSubInstr ..) (addSub_of_isNaN _ _ true h),
      answers_of_exec (exec_mulInstr ..) (mul_of_isNaN _ _ h), answers_of_exec (exec_divInstr ..) (div_of_isNaN _ _ h),
      answers_of_exec (exec_remInstr ..) (rem_of_isNaN h)⟩
  · simp only [List.forall_mem_cons, List.not_mem_nil, false_imp_iff, implies_true, and_true]
    exact ⟨answers_of_exec (exec_sqrtInstr ..) (sqrt_of_isNaN _ _ h),
      answers_of_exec (exec_roundToIntInstr ..) (roundToInt_of_isNaN _ _ _ h)⟩
  · exact answers_of_exec (exec_fromFloatInstr ..) (floatToFloat_of_isNaN _ _ _ h)
  · refine answers_of_exec (exec_mulAddInstr ..)
      ((mulAdd_of_isNaN _ _ config h).trans (congrArg (Prod.mk _) (nvIf_congr ?_)))
    simp [zeroTimesInf_iff, config, or_assoc, zi, a, b, c]
  · have hzi' : zeroTimesInf fmt a b = true := zeroTimesInf_iff.mpr hzi
    obtain ⟨hna, hnb⟩ := not_isNaN_of_zeroTimesInf hzi'
    have hsc := (isNaN_sig_or_quiet fmt c).2
    rw [hquiet, Bool.and_true] at hsc
    refine (mulAdd_of_isNaN _ _ cfg h).trans (congrArg (Prod.mk _) (nvIf_congr ?_))
    simp [isSigNaN_of_not_isNaN hna, isSigNaN_of_not_isNaN hnb, hsc, hzi']

/-! ## Zeros and infinities -/

theorem addSub_inf_inf (neg : Bool) (ha : isInf fmt a) (hb : isInf fmt b) :
    addSub fmt neg a b rm tm =
      if signOf fmt a = (signOf fmt b ^^ neg) then (a, noFlags) else invalidResult fmt := by
  by_cases hs : signOf fmt a = (signOf fmt b ^^ neg) <;> simp [addSub, isInf_excludes ha, isInf_excludes hb, ha, hb, hs]

theorem addSub_inf_finite (neg : Bool) (ha : isInf fmt a) (hb : isFinite fmt b) :
    addSub fmt neg a b rm tm = (a, noFlags) := by
  simp [addSub, isInf_excludes ha, isFinite_excludes hb, ha]

theorem addSub_finite_inf (neg : Bool) (ha : isFinite fmt a) (hb : isInf fmt b) :
    addSub fmt neg a b rm tm = (infPat fmt (signOf fmt b ^^ neg), noFlags) := by
  simp [addSub, isFinite_excludes ha, isInf_excludes hb, hb]

theorem mul_of_zeroTimesInf (h : zeroTimesInf fmt a b) : mul fmt a b rm tm = invalidResult fmt := by
  obtain ⟨hz, hi⟩ | ⟨hi, hz⟩ := zeroTimesInf_iff.mp h <;> simp [mul, isZero_excludes hz, isInf_excludes hi, hz, hi]

theorem mulAdd_of_zeroTimesInf (cfg : Config) (h : zeroTimesInf fmt a b) (hc : ¬ isNaN fmt c) :
    mulAdd cfg fmt a b c rm tm = invalidResult fmt := by
  simp [mulAdd, not_isNaN_of_zeroTimesInf h, hc, h]

/-- An infinite factor, the other neither a NaN nor a zero. -/
def InfiniteProduct (fmt : Fmt) (a b : Pat fmt) : Prop :=
  (isInf fmt a ∧ ¬ isNaN fmt b ∧ ¬ isZero fmt b) ∨ (isInf fmt b ∧ ¬ isNaN fmt a ∧ ¬ isZero fmt a)

theorem InfiniteProduct.classes (h : InfiniteProduct fmt a b) :
    (isInf fmt a || isInf fmt b) = true ∧ isNaN fmt a = false ∧ isNaN fmt b = false ∧
      isZero fmt a = false ∧ isZero fmt b = false := by
  obtain ⟨hi, hn, hz⟩ | ⟨hi, hn, hz⟩ := h <;> simp [hi, hn, hz, isInf_excludes hi]

theorem mul_of_infiniteProduct (h : InfiniteProduct fmt a b) :
    mul fmt a b rm tm = (infPat fmt (signOf fmt a ^^ signOf fmt b), noFlags) := by
  obtain ⟨hi, hna, hnb, hza, hzb⟩ := h.classes
  simp [mul, hi, hna, hnb, hza, hzb]

/-- The sum of an infinite product and an addend that is not a NaN. -/
theorem mulAdd_of_infiniteProduct (cfg : Config) (h : InfiniteProduct fmt a b) (hc : ¬ isNaN fmt c) :
    mulAdd cfg fmt a b c rm tm =
      if isInf fmt c ∧ signOf fmt c ≠ (signOf fmt a ^^ signOf fmt b) then invalidResult fmt
      else (infPat fmt (signOf fmt a ^^ signOf fmt b), noFlags) := by
  obtain ⟨hi, hna, hnb, hza, hzb⟩ := h.classes
  simp [mulAdd, zeroTimesInf, hi, hna, hnb, hza, hzb, hc]

/-- R152: the product is infinite or itself invalid, and the addend is the infinity of the other sign. -/
theorem mulAdd_opposed (cfg : Config) (h : (isInf fmt a ∧ ¬ isNaN fmt b) ∨ (isInf fmt b ∧ ¬ isNaN fmt a))
    (hc : isInf fmt c ∧ signOf fmt c ≠ (signOf fmt a ^^ signOf fmt b)) :
    mulAdd cfg fmt a b c rm tm = invalidResult fmt := by
  have hnc : ¬ isNaN fmt c := by simp [isInf_excludes hc.1]
  by_cases hzi : zeroTimesInf fmt a b
  · exact mulAdd_of_zeroTimesInf rm tm cfg hzi hnc
  · have hinf : InfiniteProduct fmt a b := by
      rw [zeroTimesInf_iff] at hzi
      unfold InfiniteProduct
      tauto
    exact (mulAdd_of_infiniteProduct rm tm cfg hinf hnc).trans (if_pos hc)

theorem mulAdd_finite_inf (cfg : Config) (ha : isFinite fmt a) (hb : isFinite fmt b) (hc : isInf fmt c) :
    mulAdd cfg fmt a b c rm tm = (c, noFlags) := by
  simp [mulAdd, zeroTimesInf, isFinite_excludes ha, isFinite_excludes hb, isInf_excludes hc, hc]

theorem div_zero_zero (ha : isZero fmt a) (hb : isZero fmt b) : div fmt a b rm tm = invalidResult fmt := by
  simp [div, isZero_excludes ha, isZero_excludes hb, ha, hb]

theorem div_inf_inf (ha : isInf fmt a) (hb : isInf fmt b) : div fmt a b rm tm = invalidResult fmt := by
  simp [div, isInf_excludes ha, isInf_excludes hb, ha, hb]

theorem div_inf_finite (ha : isInf fmt a) (hb : isFinite fmt b) :
    div fmt a b rm tm = (infPat fmt (signOf fmt a ^^ signOf fmt b), noFlags) := by
  simp [div, isInf_excludes ha, isFinite_excludes hb, ha]

theorem div_finite_inf (ha : isFinite fmt a) (hb : isInf fmt b) :
    div fmt a b rm tm = (zeroPat fmt (signOf fmt a ^^ signOf fmt b), noFlags) := by
  simp [div, isFinite_excludes ha, isInf_excludes hb, hb]

theorem div_finite_zero (ha : isFinite fmt a) (hza : ¬ isZero fmt a) (hb : isZero fmt b) :
    div fmt a b rm tm = (infPat fmt (signOf fmt a ^^ signOf fmt b), DZ) := by
  simp [div, isFinite_excludes ha, isZero_excludes hb, hza, hb]

theorem rem_inf_left (ha : isInf fmt a) (hb : ¬ isNaN fmt b) : rem fmt a b = invalidResult fmt := by
  simp [rem, isInf_excludes ha, ha, hb]

theorem rem_zero_right (ha : ¬ isNaN fmt a) (hb : isZero fmt b) : rem fmt a b = invalidResult fmt := by
  simp [rem, isZero_excludes hb, ha, hb]

theorem rem_finite_inf (ha : isFinite fmt a) (hb : isInf fmt b) : rem fmt a b = (a, noFlags) := by
  simp [rem, isFinite_excludes ha, isInf_excludes hb, hb]

theorem sqrt_negative (hs : signOf fmt a) (hz : ¬ isZero fmt a) (hn : ¬ isNaN fmt a) :
    sqrt fmt a rm tm = invalidResult fmt := by
  simp [sqrt, hs, hz, hn]

theorem sqrt_inf (ha : isInf fmt a) (hs : ¬ signOf fmt a) : sqrt fmt a rm tm = (a, noFlags) := by
  simp [sqrt, isInf_excludes ha, ha, hs]

/-- Settles O32: each row of R152 is a branch of its kernel. -/
theorem invalidOperations : Obligations.InvalidOperations := by
  intro fmt rm exact ops s a b c zeroInf bad
  refine ⟨fun ⟨ha, hb⟩ => ?_, fun ⟨ha, hb⟩ => ?_, fun h => ?_, fun h hc => ?_, fun ⟨hs, hz, hn⟩ => ?_,
    fun ⟨ha, hb, hs⟩ => ?_, fun ⟨ha, hb, hs⟩ => ?_, fun h hc => ?_, fun ⟨ha, hb⟩ => ?_, fun ⟨hb, ha⟩ => ?_⟩
  · exact answers_of_exec (exec_divInstr ..) (div_zero_zero _ _ ha hb)
  · exact answers_of_exec (exec_divInstr ..) (div_inf_inf _ _ ha hb)
  · exact answers_of_exec (exec_mulInstr ..) (mul_of_zeroTimesInf _ _ (zeroTimesInf_iff.mpr h))
  · exact answers_of_exec (exec_mulAddInstr ..) (mulAdd_of_zeroTimesInf _ _ _ (zeroTimesInf_iff.mpr h) hc)
  · exact answers_of_exec (exec_sqrtInstr ..) (sqrt_negative _ _ hs hz hn)
  · exact answers_of_exec (exec_addSubInstr ..) ((addSub_inf_inf _ _ false ha hb).trans (if_neg (by simp [hs])))
  · exact answers_of_exec (exec_addSubInstr ..) ((addSub_inf_inf _ _ true ha hb).trans (if_neg (by simp [hs])))
  · exact answers_of_exec (exec_mulAddInstr ..) (mulAdd_opposed _ _ _ h hc)
  · exact answers_of_exec (exec_remInstr ..) (rem_inf_left ha hb)
  · exact answers_of_exec (exec_remInstr ..) (rem_zero_right ha hb)

/-- Settles O33: each clause is a branch of its kernel that hands an operand on or makes an infinity or a zero. -/
theorem infinityArithmetic : Obligations.InfinityArithmetic := by
  intro fmt rm exact ops s a b c sp gives
  refine ⟨fun ⟨ha, hb⟩ => ⟨?_, ?_⟩, fun ⟨ha, hb⟩ => ⟨?_, ?_⟩, fun ⟨ha, hb, hs⟩ => ?_, fun ⟨ha, hb, hs⟩ => ?_,
    fun h => ⟨?_, fun hc => ?_⟩, fun ⟨ha, hb, hc⟩ => ?_, fun ⟨ha, hb⟩ => ⟨?_, ?_⟩, fun ⟨ha, hb⟩ => ?_,
    fun ⟨ha, hs⟩ => ?_⟩
  · exact answers_of_exec (exec_addSubInstr ..) (addSub_inf_finite _ _ false ha hb)
  · exact answers_of_exec (exec_addSubInstr ..) (addSub_inf_finite _ _ true ha hb)
  · refine answers_of_exec (exec_addSubInstr ..) ((addSub_finite_inf _ _ false ha hb).trans ?_)
    rw [Bool.xor_false, ← eq_infPat_of_isInf hb]
    rfl
  · refine answers_of_exec (exec_addSubInstr ..) ((addSub_finite_inf _ _ true ha hb).trans ?_)
    rw [Bool.xor_true, ← negPat_infPat, ← eq_infPat_of_isInf hb]
    rfl
  · exact answers_of_exec (exec_addSubInstr ..) ((addSub_inf_inf _ _ false ha hb).trans (if_pos (by simp [hs])))
  · exact answers_of_exec (exec_addSubInstr ..)
      ((addSub_inf_inf _ _ true ha hb).trans (if_pos (by rwa [Bool.xor_true, Bool.eq_not])))
  · exact answers_of_exec (exec_mulInstr ..) (mul_of_infiniteProduct _ _ h)
  · have hnc : ¬ isNaN fmt c := by
      obtain hfin | ⟨hinf, -⟩ := hc
      · simp [isFinite_excludes hfin]
      · simp [isInf_excludes hinf]
    have hsame : ¬ (isInf fmt c ∧ signOf fmt c ≠ sp) := by
      obtain hfin | ⟨-, hs⟩ := hc
      · simp [isFinite_excludes hfin]
      · simp [hs]
    exact answers_of_exec (exec_mulAddInstr ..) ((mulAdd_of_infiniteProduct _ _ _ h hnc).trans (if_neg hsame))
  · exact answers_of_exec (exec_mulAddInstr ..) (mulAdd_finite_inf _ _ _ ha hb hc)
  · exact answers_of_exec (exec_divInstr ..) (div_finite_inf _ _ ha hb)
  · exact answers_of_exec (exec_remInstr ..) (rem_finite_inf ha hb)
  · exact answers_of_exec (exec_divInstr ..) (div_inf_finite _ _ ha hb)
  · exact answers_of_exec (exec_sqrtInstr ..) (sqrt_inf _ _ ha hs)

end Sys2Proof.Machine
end

section
/-! The flags a request can return (44_nan_and_flag_logic.md R160 to R165). The rounding engine raises `UF` only when a
tiny result loses bits and `OF` only past the largest exponent. A sum of two patterns is a multiple of the format's
smallest unit, so it loses no bits when it is tiny; square roots and integers have exponents well inside the range. -/

namespace Sys2Proof.Machine

/-- The flags of a kernel's result are one of the sets `row`. -/
def FlagsIn {α : Type} (row : List FlagSet) (r : α × FlagSet) : Prop := r.2 ∈ row

namespace FlagsIn
variable {α : Type} {row row' : List FlagSet} {r r' : α × FlagSet}

theorem mono (h : FlagsIn row r) (hrow : row ⊆ row') : FlagsIn row' r := hrow h

theorem ite {p : Prop} [Decidable p] (h : FlagsIn row r) (h' : FlagsIn row r') : FlagsIn row (if p then r else r') := by
  split
  · exact h
  · exact h'

/-- Every row begins with the empty set. -/
theorem none (x : α) : FlagsIn (0 :: row) (x, noFlags) := List.mem_cons_self

theorem flagIf (x : α) (c : Bool) (fl : FlagSet) : FlagsIn [0, fl] (x, flagIf c fl) := by
  cases c
  · exact .none x
  · exact List.mem_cons_of_mem _ List.mem_cons_self

end FlagsIn

/-- What the rounding engine and an invalid operation can raise: every row of R165 but the division's is part of it. -/
def engineRow : List FlagSet := [0, NX, UF ||| NX, OF ||| NX, NV]

theorem infinite_clear_of_mem_engineRow : ∀ fl ∈ engineRow, fl.getLsbD 3 = false := by decide

/-! ## The rounding engine -/

section Engine
variable {fmt : Fmt} {sign : Bool} {exp e : Int} {sig m : Nat} {sticky : Bool} (rm : RoundingMode) (tm : Tininess)

theorem roundPack_flagsIn : FlagsIn [0, NX, UF ||| NX, OF ||| NX] (roundPack fmt sign exp sig rm tm) := by
  simpa [FlagsIn, EngineFlags, noFlags] using roundPack_flags fmt sign exp sig rm tm

/-- R161: a result that keeps every bit when it is denormalised does not underflow. -/
theorem roundPack_flagsIn_of_denorm_exact (h : exp < 0 → 2 ^ fmt.g ∣ denormSig fmt exp sig) :
    FlagsIn [0, NX, OF ||| NX] (roundPack fmt sign exp sig rm tm) := by
  by_cases hov : Overflows fmt sign rm exp sig
  · rw [roundPack_of_overflows hov]
    simp [FlagsIn]
  · rw [roundPack_of_not_overflows hov, FlagsIn, roundFinish_flags]
    by_cases hneg : exp < 0
    · simp [Nat.mod_eq_zero_of_dvd (h hneg), flagIf, noFlags]
    · cases (denormSig fmt exp sig % 2 ^ fmt.g != 0) <;> simp [hneg, flagIf, noFlags]

/-- An exponent inside the range neither underflows nor overflows. -/
theorem roundPack_flagsIn_of_normal (h : 0 ≤ exp ∧ exp < fmt.expMax - 2) :
    FlagsIn [0, NX] (roundPack fmt sign exp sig rm tm) := by
  rw [roundPack, if_neg (by omega), if_neg (by omega), FlagsIn, roundFinish_flags, noFlags, BitVec.zero_or]
  exact FlagsIn.flagIf () ..

theorem roundExact_flagsIn_of_normal (h : 0 ≤ bridgeExp fmt m e ∧ bridgeExp fmt m e < fmt.expMax - 2) :
    FlagsIn [0, NX] (roundExact fmt sign m sticky e rm tm) := roundPack_flagsIn_of_normal rm tm h

/-- The bridge hands a multiple of the format's smallest unit to the engine so that denormalising loses no bit. -/
theorem denormSig_bridge_dvd (he : fmt.emin - fmt.t ≤ e) (hneg : bridgeExp fmt m e < 0) :
    2 ^ fmt.g ∣ denormSig fmt (bridgeExp fmt m e) (bridgeSig fmt m sticky) := by
  have hk : fmt.g + fmt.t + 2 = fmt.k := by cases fmt <;> rfl
  obtain ⟨d, hd⟩ : ∃ d : Nat, -bridgeExp fmt m e = d := Int.eq_ofNat_of_zero_le (by omega)
  rw [bridgeExp] at hd hneg
  rw [Fmt.emin] at he
  obtain ⟨u, hu⟩ : ∃ u, fmt.k - 1 - bitlen m = d + (fmt.g + u) := ⟨fmt.k - 1 - bitlen m - d - fmt.g, by omega⟩
  have hsig : bridgeSig fmt m sticky = 2 ^ d * (2 ^ fmt.g * (m * 2 ^ u)) := by
    rw [bridgeSig, if_neg (by omega), hu, Nat.shiftLeft_eq, Nat.pow_add, Nat.pow_add]
    ring
  have hdenorm : denormSig fmt (bridgeExp fmt m e) (bridgeSig fmt m sticky) = 2 ^ fmt.g * (m * 2 ^ u) := by
    rw [denormSig, bridgeExp, hd, Int.toNat_natCast, hsig, shiftRightJam, if_neg (by omega), if_neg (by omega),
      Nat.shiftRight_eq_div_pow, Nat.mul_div_cancel_left _ (Nat.two_pow_pos d), Nat.mul_mod_right, bne_self_eq_false,
      jamBit_false, Nat.or_zero]
  exact hdenorm ▸ Nat.dvd_mul_right ..

theorem roundExact_flagsIn_of_grid (he : fmt.emin - fmt.t ≤ e) :
    FlagsIn [0, NX, OF ||| NX] (roundExact fmt sign m sticky e rm tm) :=
  roundPack_flagsIn_of_denorm_exact rm tm (denormSig_bridge_dvd he)

end Engine

/-! ## The kernels, branch by branch -/

section Kernels
variable (fmt : Fmt) (a b c : Pat fmt) (rm : RoundingMode) (tm : Tininess)

theorem nanResult_flagsIn (ops : List (Pat fmt)) : FlagsIn [0, NV] (nanResult fmt ops) := .flagIf ..

theorem invalidResult_flagsIn : FlagsIn [0, NV] (invalidResult fmt) := .flagIf _ true _

/-- Both operands are multiples of the smallest unit, and so is their sum. -/
theorem addSub_flagsIn (neg : Bool) : FlagsIn [0, NX, OF ||| NX, NV] (addSub fmt neg a b rm tm) :=
  .ite ((nanResult_flagsIn ..).mono (by decide)) <|
  .ite (.ite ((invalidResult_flagsIn fmt).mono (by decide)) (.none _)) <| .ite (.none _) <| .ite (.none _) <|
  .ite (.none _) <|
    (roundExact_flagsIn_of_grid rm tm (le_min (unpack_q_bounds fmt a).1 (unpack_q_bounds fmt b).1)).mono (by decide)

theorem mul_flagsIn : FlagsIn engineRow (mul fmt a b rm tm) :=
  .ite ((nanResult_flagsIn ..).mono (by decide)) <|
  .ite (.ite ((invalidResult_flagsIn fmt).mono (by decide)) (.none _)) <| .ite (.none _) <|
    (roundPack_flagsIn rm tm).mono (by decide)

theorem mulAdd_flagsIn (cfg : Config) : FlagsIn engineRow (mulAdd cfg fmt a b c rm tm) := by
  have hnan (x : Pat fmt) (p q : Bool) : FlagsIn engineRow (x, flagIf p NV ||| flagIf q NV) := by
    rw [flagIf_or]
    exact (FlagsIn.flagIf ..).mono (by decide)
  have hinvalid := (invalidResult_flagsIn fmt).mono (row' := engineRow) (by decide)
  exact .ite (hnan ..) <| .ite hinvalid <| .ite (.ite hinvalid (.none _)) <| .ite (.none _) <|
    .ite (.ite (.none _) (.none _)) <| .ite (.none _) <| (roundPack_flagsIn rm tm).mono (by decide)

/-- Whether a division is one by zero (R163). -/
def DividesByZero (fmt : Fmt) (a b : Pat fmt) : Prop := isFinite fmt a ∧ ¬ isZero fmt a ∧ isZero fmt b

/-- R163: only a finite nonzero dividend over a zero divisor raises `DZ`. -/
theorem div_flagsIn_of_not_byZero (h : ¬ DividesByZero fmt a b) : FlagsIn engineRow (div fmt a b rm tm) := by
  have hinvalid := (invalidResult_flagsIn fmt).mono (row' := engineRow) (by decide)
  unfold div
  split_ifs with hnan hia hib hib hzb hza
  · exact (nanResult_flagsIn ..).mono (by decide)
  · exact hinvalid
  · exact .none _
  · exact .none _
  · exact hinvalid
  · -- the branch that raises `DZ`
    simp only [Bool.or_eq_true, not_or, Bool.not_eq_true] at hnan hia
    exact absurd ⟨isFinite_of_not_isNaN_not_isInf hnan.1 hia, hza, hzb⟩ h
  · exact .none _
  · exact (roundPack_flagsIn rm tm).mono (by decide)

theorem div_flagsIn : FlagsIn [0, NX, UF ||| NX, OF ||| NX, DZ, NV] (div fmt a b rm tm) := by
  by_cases h : DividesByZero fmt a b
  · obtain ⟨ha, hza, hzb⟩ := h
    rw [div_finite_zero rm tm ha hza hzb]
    simp [FlagsIn]
  · exact (div_flagsIn_of_not_byZero fmt a b rm tm h).mono (by decide)

theorem rem_flagsIn : FlagsIn [0, NV] (rem fmt a b) :=
  .ite (nanResult_flagsIn ..) <| .ite (invalidResult_flagsIn fmt) <| .ite (.none _) <| .ite (.none _) (.none _)

/-- A root of a nonzero magnitude has its exponent well inside the range (47_div_rem_sqrt.md R215). -/
theorem bridgeExp_isqrt_bounds {m : Nat} {q : Int} (h0 : 0 < m) (hm : m < 2 * 2 ^ fmt.p)
    (hlo : fmt.emin - fmt.t - 1 ≤ q) (hhi : q ≤ (fmt.expMax : Int) - fmt.bias - fmt.t) :
    0 ≤ bridgeExp fmt (isqrt (m * 2 ^ 128)) (q / 2 - 64) ∧
      bridgeExp fmt (isqrt (m * 2 ^ 128)) (q / 2 - 64) < fmt.expMax - 2 := by
  obtain ⟨hle, hlt⟩ := isqrt_spec (m * 2 ^ 128)
  set r := isqrt (m * 2 ^ 128)
  have hp : 2 ^ fmt.p ≤ 2 ^ 53 := by cases fmt <;> decide
  have hr : r < 2 ^ 91 := by
    rw [← Nat.mul_self_lt_mul_self_iff]
    omega
  have hr' : 2 ^ 64 < r + 1 := by
    rw [← Nat.mul_self_lt_mul_self_iff]
    exact hlt.trans_le' (by omega)
  have hlen := bitlen_le_of_lt hr
  have hlen' : 64 < bitlen r := by
    rw [← Nat.pow_lt_pow_iff_right Nat.one_lt_two]
    exact (Nat.lt_succ_iff.mp hr').trans_lt (lt_two_pow_bitlen r)
  rw [Fmt.emin] at hlo
  rw [bridgeExp]
  cases fmt <;> simp only [Fmt.expMax, Fmt.bias, Fmt.t, Fmt.w] at hlo hhi ⊢ <;> omega

theorem sqrt_flagsIn : FlagsIn [0, NX, NV] (sqrt fmt a rm tm) := by
  unfold sqrt
  split_ifs with hnan hz hs hinf
  · exact (nanResult_flagsIn ..).mono (by decide)
  · exact .none _
  · exact (invalidResult_flagsIn fmt).mono (by decide)
  · exact .none _
  · -- a positive number, its exponent made even
    have hq := unpack_q_bounds fmt a
    have hm := unpack_m_lt fmt a
    have h0 : (unpack fmt a).m ≠ 0 := mt (unpack_m_eq_zero fmt a).mp hz
    refine (roundExact_flagsIn_of_normal rm tm (bridgeExp_isqrt_bounds fmt ?_ ?_ ?_ ?_)).mono (by decide) <;>
      split <;> omega

/-- A 64-bit integer reaches exponents well inside the range only. -/
theorem intToFloat_flagsIn (ity : IntFmt) (x : BitVec ity.width) : FlagsIn [0, NX] (intToFloat fmt ity x rm tm) := by
  have hw : ity.width ≤ 64 := by cases ity <;> decide
  have hlen := bitlen_le_of_lt (natAbs_intVal_lt ity x)
  refine .ite (.none _) (roundExact_flagsIn_of_normal rm tm ?_)
  rw [bridgeExp]
  cases fmt <;> simp only [Fmt.expMax, Fmt.bias, Fmt.w] <;> omega

theorem intToFloat_int32_flagsIn {ity : IntFmt} (hw : ity.width = 32) (x : BitVec ity.width) :
    FlagsIn [0] (intToFloat .f64 ity x rm tm) := by
  rw [intToFloat, roundExact_int32 hw]
  exact .ite (.none _) (.none _)

theorem floatToFloat_flagsIn (dst : Fmt) : FlagsIn engineRow (floatToFloat fmt dst a rm tm) :=
  .ite ((FlagsIn.flagIf ..).mono (by decide)) <| .ite (.none _) <| .ite (.none _) <|
    (roundPack_flagsIn rm tm).mono (by decide)

theorem floatToFloat_widen_flagsIn (x : Pat .f32) : FlagsIn [0, NV] (floatToFloat .f32 .f64 x rm tm) := by
  simp only [floatToFloat, roundExact_widen]
  exact .ite (.flagIf ..) <| .ite (.none _) <| .ite (.none _) (.none _)

/-- The row of the ten requests that round to an integer: `NX` only when the request asks for it. -/
def integerRow (exact : Bool) : List FlagSet := if exact then [0, NX, NV] else [0, NV]

theorem integerRow_subset (exact : Bool) : integerRow exact ⊆ engineRow := by cases exact <;> decide

theorem integerRow_nv (exact : Bool) : [0, NV] ⊆ integerRow exact := by cases exact <;> decide

theorem integerRow_nx {α : Type} (x : α) (inexact exact : Bool) :
    FlagsIn (integerRow exact) (x, flagIf (inexact && exact) NX) := by
  cases exact
  · rw [Bool.and_false]
    exact .none x
  · exact (FlagsIn.flagIf ..).mono (by decide)

theorem roundToInt_flagsIn (cfg : Config) (exact : Bool) :
    FlagsIn (integerRow exact) (roundToInt cfg fmt a rm exact) := by
  have h0 : FlagsIn (integerRow exact) (a, noFlags) := integerRow_nv exact List.mem_cons_self
  exact .ite ((nanResult_flagsIn ..).mono (integerRow_nv exact)) <| .ite h0 <|
    .ite (integerRow_nx ..) (integerRow_nx ..)

theorem floatToInt_flagsIn (cfg : Config) (ity : IntFmt) (exact : Bool) :
    FlagsIn (integerRow exact) (floatToInt cfg fmt ity a rm exact) := by
  have hv (x : BitVec ity.width) : FlagsIn (integerRow exact) (x, NV) :=
    integerRow_nv exact (List.mem_cons_of_mem _ List.mem_cons_self)
  have h0 : FlagsIn (integerRow exact) ((0 : BitVec ity.width), noFlags) := integerRow_nv exact List.mem_cons_self
  exact .ite (hv _) <| .ite (hv _) <| .ite h0 <| .ite (hv _) <| .ite (hv _) (integerRow_nx ..)

theorem compare_flagsIn (kind : CompareKind) : FlagsIn [0, NV] (compare fmt kind a b) := .ite (.flagIf ..) (.none _)

end Kernels

/-! ## The requests -/

/-- A kernel request completes and responds with its kernel's flags. -/
theorem exec_response_of_finishKernel {i : Instr} {s : State} {row : List FlagSet} {z : Word} {fl : FlagSet}
    (hi : exec i s = s.finishKernel z fl) (h : fl ∈ row) :
    ∃ t p, exec i s = .next t ∧ t.response = some p ∧ p.fl ∈ row :=
  ⟨_, _, hi, State.respond_response .., h⟩

/-- Settles O20, one case for each row of R165; the rows without `UF` rest on exactness below the normal range. -/
theorem flagSetsPerRequest : Obligations.FlagSetsPerRequest := by
  intro i s
  cases i
  case ctx_init | flags_reset | flags_read => exact ⟨_, _, rfl, rfl, List.mem_cons_self⟩
  all_goals refine exec_response_of_finishKernel rfl ?_
  case f32_add | f32_sub | f64_add | f64_sub => exact addSub_flagsIn ..
  case f32_mul | f64_mul => exact mul_flagsIn ..
  case f32_mulAdd | f64_mulAdd => exact mulAdd_flagsIn ..
  case f32_div | f64_div => exact div_flagsIn ..
  case f32_rem | f64_rem => exact rem_flagsIn ..
  case f32_sqrt | f64_sqrt => exact sqrt_flagsIn ..
  case f32_roundToInt | f64_roundToInt => exact roundToInt_flagsIn ..
  case f32_to_ui32 | f32_to_ui64 | f32_to_i32 | f32_to_i64 | f64_to_ui32 | f64_to_ui64 | f64_to_i32 | f64_to_i64 =>
    exact floatToInt_flagsIn ..
  case f32_classify | f64_classify => exact List.mem_cons_self
  case ui32_to_f64 | i32_to_f64 => exact intToFloat_int32_flagsIn _ _ rfl _
  case ui32_to_f32 | ui64_to_f32 | i32_to_f32 | i64_to_f32 | ui64_to_f64 | i64_to_f64 => exact intToFloat_flagsIn ..
  case f32_to_f64 => exact floatToFloat_widen_flagsIn ..
  case f64_to_f32 => exact floatToFloat_flagsIn ..
  -- the twelve comparisons
  all_goals exact compare_flagsIn ..

/-- A row with `DZ` in it is a division's. -/
theorem divInstr_of_infinite_mem_allowedFlags {i : Instr} {fl : FlagSet} (hmem : fl ∈ allowedFlags i)
    (hdz : fl.getLsbD 3 = true) : ∃ fmt rm exact ops, i = divInstr fmt rm exact ops := by
  have hrow : ¬ allowedFlags i ⊆ engineRow := fun hsub =>
    Bool.false_ne_true ((infinite_clear_of_mem_engineRow fl (hsub hmem)).symm.trans hdz)
  cases i
  case f32_div rm exact ops => exact ⟨.f32, rm, exact, ops, rfl⟩
  case f64_div rm exact ops => exact ⟨.f64, rm, exact, ops, rfl⟩
  case f32_roundToInt | f64_roundToInt | f32_to_ui32 | f32_to_ui64 | f32_to_i32 | f32_to_i64 | f64_to_ui32 |
      f64_to_ui64 | f64_to_i32 | f64_to_i64 => exact absurd (integerRow_subset _) hrow
  all_goals exact absurd (by simp [allowedFlags, engineRow]) hrow

theorem dividesByZero_of_infinite (h : (div fmt a b rm tm).2.getLsbD 3 = true) : DividesByZero fmt a b := by
  by_contra hnot
  have hclear := infinite_clear_of_mem_engineRow _ (div_flagsIn_of_not_byZero fmt a b rm tm hnot)
  exact Bool.false_ne_true (hclear.symm.trans h)

/-- Settles O34: the three dividends over a zero, and the one branch of all kernels that raises `DZ`. -/
theorem divisionByZero : Obligations.DivisionByZero := by
  refine ⟨fun fmt rm exact ops s => ?_, fun i s t p hexec hp hdz => ?_⟩
  · intro a b hzb
    refine ⟨fun ⟨ha, hza⟩ => ?_, fun ha => ?_, fun ha => ?_⟩
    · exact answers_of_exec (exec_divInstr ..) (div_finite_zero _ _ ha hza hzb)
    · exact answers_of_exec (exec_divInstr ..) (div_zero_zero _ _ ha hzb)
    · exact answers_of_exec (exec_divInstr ..) (div_inf_finite _ _ ha (isFinite_of_isZero hzb))
  · obtain ⟨t', p', hexec', hp', hmem⟩ := flagSetsPerRequest i s
    cases hexec.symm.trans hexec'
    cases hp.symm.trans hp'
    obtain ⟨fmt, rm, exact, ops, rfl⟩ := divInstr_of_infinite_mem_allowedFlags hmem hdz
    rw [exec_divInstr, State.finishPattern_eq] at hexec
    obtain ⟨-, -, -, hresp⟩ := State.finishKernel_next hexec
    cases hp.symm.trans hresp
    obtain ⟨ha, hza, hzb⟩ := dividesByZero_of_infinite hdz
    exact ⟨fmt, rm, exact, ops, rfl, ha, by simpa using hza, hzb⟩

end Sys2Proof.Machine
end

section
/-! The exact sum of two finite operands (45_add_sub.md R180): the kernel's aligned integer sum is that number in units
of the smaller exponent, and the rounding engine is handed its magnitude. -/

namespace Sys2Proof.Machine

/-- `(-1)^s * x`. -/
def withSign (s : Bool) (x : ℚ) : ℚ := if s then -x else x

section WithSign
variable {x : ℚ} (s : Bool)

theorem withSign_eq_zero_iff : withSign s x = 0 ↔ x = 0 := by
  cases s <;> simp [withSign]

theorem abs_withSign (hx : 0 < x) : |withSign s x| = x := by
  cases s <;> simp [withSign, abs_of_pos hx]

theorem withSign_neg_iff (hx : 0 < x) : withSign s x < 0 ↔ s = true := by
  cases s <;> simp [withSign, hx, hx.le]

theorem withSign_neg (s : Bool) (x : ℚ) : withSign s (-x) = withSign (!s) x := by
  cases s <;> simp [withSign]

theorem withSign_add (s : Bool) (x y : ℚ) : withSign s x + withSign s y = withSign s (x + y) := by
  cases s <;> simp only [withSign, if_true, if_false, Bool.false_eq_true]
  ring

theorem withSign_intCast_mul (d : Int) (u : ℚ) :
    withSign s (d * u) = withSign (s ^^ decide (d < 0)) (d.natAbs * u) := by
  obtain hd | hd := lt_or_ge d 0
  · rw [decide_eq_true hd, Bool.xor_true, ← withSign_neg, Nat.cast_natAbs, abs_of_neg hd, Int.cast_neg, neg_mul,
      neg_neg]
  · rw [decide_eq_false hd.not_gt, Bool.xor_false, Nat.cast_natAbs, abs_of_nonneg hd]

end WithSign

section Magnitude
variable {fmt : Fmt} (a : Pat fmt)

theorem magOf_nonneg : 0 ≤ magOf ℚ fmt a := by unfold magOf; positivity

theorem magOf_eq_zero_iff : magOf ℚ fmt a = 0 ↔ isZero fmt a = true := by
  rw [← unpack_m_eq_zero, magOf, mul_eq_zero_iff_right (by positivity), Nat.cast_eq_zero]

theorem magOf_pos_iff : 0 < magOf ℚ fmt a ↔ isZero fmt a = false := by
  rw [(magOf_nonneg a).lt_iff_ne', Ne, magOf_eq_zero_iff, Bool.not_eq_true]

end Magnitude

section Sum
variable {fmt : Fmt} (neg : Bool) (a b : Pat fmt)

/-- The exact sum, or the exact difference when `neg` is set. -/
def sumValue (fmt : Fmt) (neg : Bool) (a b : Pat fmt) : ℚ :=
  valueOf ℚ fmt a + (if neg then -valueOf ℚ fmt b else valueOf ℚ fmt b)

theorem sumValue_eq :
    sumValue fmt neg a b =
      withSign (signOf fmt a) (magOf ℚ fmt a) + withSign (signOf fmt b ^^ neg) (magOf ℚ fmt b) := by
  cases neg <;> cases hb : signOf fmt b <;> simp [sumValue, valueOf, withSign, hb]

/-- The exponent R180 aligns both operands to. -/
def alignExp (fmt : Fmt) (a b : Pat fmt) : Int := min (unpack fmt a).q (unpack fmt b).q

/-- R180's sum of the aligned significands. -/
def alignedSum (fmt : Fmt) (neg : Bool) (a b : Pat fmt) : Int :=
  signed (signOf fmt a) ((unpack fmt a).m * 2 ^ ((unpack fmt a).q - alignExp fmt a b).toNat) +
    signed (signOf fmt b ^^ neg) ((unpack fmt b).m * 2 ^ ((unpack fmt b).q - alignExp fmt a b).toNat)

/-- Aligning to a smaller exponent keeps the value. -/
theorem cast_signed_aligned (s : Bool) {q : Int} (hq : q ≤ (unpack fmt a).q) :
    (signed s ((unpack fmt a).m * 2 ^ ((unpack fmt a).q - q).toNat) : ℚ) * 2 ^ q = withSign s (magOf ℚ fmt a) := by
  have hexp : (unpack fmt a).q = ((unpack fmt a).q - q).toNat + q := by omega
  rw [magOf]
  conv_rhs => rw [hexp, zpow_add₀ two_ne_zero, zpow_natCast]
  cases s <;> simp [signed, withSign, mul_assoc]

theorem sumValue_eq_alignedSum : sumValue fmt neg a b = alignedSum fmt neg a b * 2 ^ alignExp fmt a b := by
  rw [sumValue_eq, ← cast_signed_aligned a _ (min_le_left _ (unpack fmt b).q),
    ← cast_signed_aligned b _ (min_le_right (unpack fmt a).q _), ← add_mul, ← Int.cast_add]
  rfl

theorem sumValue_eq_zero_iff : sumValue fmt neg a b = 0 ↔ alignedSum fmt neg a b = 0 := by
  rw [sumValue_eq_alignedSum, mul_eq_zero_iff_right (by positivity), Int.cast_eq_zero]

theorem sumValue_neg_iff : sumValue fmt neg a b < 0 ↔ alignedSum fmt neg a b < 0 := by
  rw [sumValue_eq_alignedSum, ← not_le, mul_nonneg_iff_of_pos_right (by positivity), Int.cast_nonneg_iff, not_le]

theorem abs_sumValue : |sumValue fmt neg a b| = (alignedSum fmt neg a b).natAbs * 2 ^ alignExp fmt a b := by
  rw [sumValue_eq_alignedSum, abs_mul, abs_of_pos (a := (2 : ℚ) ^ _) (by positivity), Nat.cast_natAbs, Int.cast_abs]

theorem sumValue_comm : sumValue fmt false a b = sumValue fmt false b a := by
  simp [sumValue, add_comm]

variable {neg a b}

/-- Like effective signs add the magnitudes. -/
theorem sumValue_of_like (hs : signOf fmt a = (signOf fmt b ^^ neg)) :
    sumValue fmt neg a b = withSign (signOf fmt a) (magOf ℚ fmt a + magOf ℚ fmt b) := by
  rw [sumValue_eq, ← hs, withSign_add]

/-- Unlike effective signs subtract them. -/
theorem sumValue_of_unlike (hs : signOf fmt a ≠ (signOf fmt b ^^ neg)) :
    sumValue fmt neg a b = withSign (signOf fmt a) (magOf ℚ fmt a - magOf ℚ fmt b) := by
  rw [sumValue_eq, Bool.eq_not.mpr hs.symm, ← withSign_neg, withSign_add, sub_eq_add_neg]

end Sum

section Kernel
variable {fmt : Fmt} {neg : Bool} {a b : Pat fmt} (rm : RoundingMode) (tm : Tininess)

/-- The kernel on finite operands. -/
theorem addSub_of_finite (ha : isFinite fmt a = true) (hb : isFinite fmt b = true) :
    addSub fmt neg a b rm tm =
      if isZero fmt a && isZero fmt b then
        (zeroPat fmt (if signOf fmt a = (signOf fmt b ^^ neg) then signOf fmt a else cancelSign rm), noFlags)
      else if alignedSum fmt neg a b = 0 then (zeroPat fmt (cancelSign rm), noFlags)
      else
        roundExact fmt (alignedSum fmt neg a b < 0) (alignedSum fmt neg a b).natAbs false (alignExp fmt a b) rm tm := by
  simp only [addSub, isFinite_excludes ha, isFinite_excludes hb, Bool.or_self, Bool.false_eq_true, if_false]
  rfl

theorem sumValue_of_isZero (ha : isZero fmt a = true) (hb : isZero fmt b = true) : sumValue fmt neg a b = 0 := by
  rw [sumValue_eq, (magOf_eq_zero_iff a).mpr ha, (magOf_eq_zero_iff b).mpr hb]
  simp [withSign]

theorem cancelSign_eq_zeroSign (rm : RoundingMode) : cancelSign rm = zeroSign rm := by cases rm <;> rfl

/-- R180: the sign of a sum that is exactly 0. -/
theorem addSub_of_sumValue_eq_zero (ha : isFinite fmt a = true) (hb : isFinite fmt b = true)
    (h : sumValue fmt neg a b = 0) :
    addSub fmt neg a b rm tm =
      (zeroPat fmt (if isZero fmt a ∧ isZero fmt b ∧ signOf fmt a = (signOf fmt b ^^ neg) then signOf fmt a
        else zeroSign rm), noFlags) := by
  rw [addSub_of_finite rm tm ha hb, if_pos ((sumValue_eq_zero_iff ..).mp h), cancelSign_eq_zeroSign]
  cases isZero fmt a <;> cases isZero fmt b <;> simp

/-- Two zeros of one effective sign add to that zero. -/
theorem addSub_of_like_zeros (ha : isZero fmt a = true) (hb : isZero fmt b = true)
    (hs : signOf fmt a = (signOf fmt b ^^ neg)) : addSub fmt neg a b rm tm = (zeroPat fmt (signOf fmt a), noFlags) := by
  rw [addSub_of_sumValue_eq_zero rm tm (isFinite_of_isZero ha) (isFinite_of_isZero hb) (sumValue_of_isZero ha hb),
    if_pos ⟨ha, hb, hs⟩]

/-- A sum that is not 0 goes to the rounding engine in the convention of R130. -/
theorem addSub_eq_roundPack (ha : isFinite fmt a = true) (hb : isFinite fmt b = true) (h : sumValue fmt neg a b ≠ 0) :
    ∃ exp sig, EngineInput fmt exp sig |sumValue fmt neg a b| ∧
      ∀ rm tm, addSub fmt neg a b rm tm = roundPack fmt (decide (sumValue fmt neg a b < 0)) exp sig rm tm := by
  have hsum : alignedSum fmt neg a b ≠ 0 := mt (sumValue_eq_zero_iff ..).mpr h
  have hzero : ¬ (isZero fmt a && isZero fmt b) = true := fun hz =>
    h (sumValue_of_isZero (Bool.and_eq_true_iff.mp hz).1 (Bool.and_eq_true_iff.mp hz).2)
  refine ⟨_, _, bridge_engineInput (sticky := false) (Int.natAbs_pos.mpr hsum) (abs_sumValue neg a b), fun rm tm => ?_⟩
  rw [addSub_of_finite rm tm ha hb, if_neg hzero, if_neg hsum, roundExact_eq_roundPack_bridge]
  simp only [sumValue_neg_iff]

end Kernel

/-- Settles O35: the aligned sum is the exact sum in units of the smaller exponent, and the engine rounds it. -/
theorem addSubOfFinite : Obligations.AddSubOfFinite := by
  intro fmt neg rm exact ops s a b x ha hb
  refine ⟨fun hx => ?_, fun hx => ?_⟩
  · obtain ⟨exp, sig, hin, heq⟩ := addSub_eq_roundPack ha hb hx
    exact ⟨_, hin.correctlyRounded_roundPack _ rm s.tininess, answers_of_exec (exec_addSubInstr ..) (heq ..)⟩
  · exact answers_of_exec (exec_addSubInstr ..) (addSub_of_sumValue_eq_zero _ _ ha hb hx)

end Sys2Proof.Machine
end

section
/-! What the rounding engine reads of a significand (43_rounding_engine.md R131, R132). With no shift to come it
compares the round bits with 0 and with half a last place, so a significand that compares with the multiples of half a
last place as the exact magnitude does gives the engine's result, whatever bits below it have been jammed. A magnitude
that is the value of a pattern rounds to that pattern. -/

namespace Sys2Proof.Machine

section Reading
variable {fmt : Fmt} {s : Bool} {exp exp' : Int} {sig sig' : Nat} {x y : ℚ} {rm : RoundingMode} {tm : Tininess}

theorem two_pow_dvd_half {c : Nat} (hc : c ≤ 2) : 2 ^ c ∣ fmt.half := by
  refine (Nat.pow_dvd_pow 2 hc).trans ?_
  cases fmt <;> decide

/-- The pair stands for the magnitude `x`, normalised, as far as the engine looks: to half a last place, and to the even
numbers when a denormalising shift is to come. -/
structure Reading (fmt : Fmt) (exp : Int) (sig : Nat) (x : ℚ) : Prop where
  top_le : fmt.top ≤ 2 * sig
  lt_top : sig < fmt.top
  coarse : ComparesLike fmt.half sig (x / 2 ^ (exp + fmt.emin - fmt.t - fmt.g))
  fine : exp < 0 → ComparesLike 2 sig (x / 2 ^ (exp + fmt.emin - fmt.t - fmt.g))

theorem EngineInput.reading (h : EngineInput fmt exp sig x) : Reading fmt exp sig x :=
  ⟨h.sig_bounds.1, h.sig_bounds.2, h.reads.of_dvd (two_dvd_half fmt), fun _ => h.reads⟩

/-- A magnitude that is a whole number of units. -/
theorem reading_of_eq (hx : x = sig * 2 ^ (exp + fmt.emin - fmt.t - fmt.g)) (hlo : fmt.top ≤ 2 * sig)
    (hhi : sig < fmt.top) : Reading fmt exp sig x := by
  have hy : x / 2 ^ (exp + fmt.emin - fmt.t - fmt.g) = sig := by
    rw [hx, mul_div_cancel_right₀ _ (by positivity)]
  exact ⟨hlo, hhi, hy ▸ comparesLike_self _ sig, fun _ => hy ▸ comparesLike_self _ sig⟩

theorem ComparesLike.mul_right {a b : Nat} (h : ComparesLike b a y) {c : Nat} (hc : 0 < c) :
    ComparesLike (b * c) (a * c) (y * c) := by
  rintro _ ⟨j, rfl⟩
  obtain ⟨hge, hle⟩ := h (b * j) (Nat.dvd_mul_right ..)
  have hc' : (0 : ℚ) < c := Nat.cast_pos.mpr hc
  rw [Nat.mul_right_comm, Nat.mul_le_mul_right_iff hc, Nat.mul_le_mul_right_iff hc, hge, hle, Nat.cast_mul (b * j) c,
    mul_le_mul_iff_of_pos_right hc', mul_le_mul_iff_of_pos_right hc']
  exact ⟨Iff.rfl, Iff.rfl⟩

/-- A jammed significand moved up one place at most, with no denormalising shift to come. -/
theorem reading_of_jam {c : Nat} (h : ComparesLike 2 sig (x / 2 ^ (exp + fmt.emin - fmt.t - fmt.g))) (hc : c ≤ 1)
    (hexp : c ≤ exp) (hlo : fmt.top ≤ 2 * (sig <<< c)) (hhi : sig <<< c < fmt.top) :
    Reading fmt (exp - c) (sig <<< c) x := by
  have hunit : x / 2 ^ (exp + fmt.emin - fmt.t - fmt.g) * (2 ^ c : Nat) =
      x / 2 ^ (exp - c + fmt.emin - fmt.t - fmt.g) := by
    rw [Nat.cast_pow, Nat.cast_ofNat, div_mul, ← zpow_natCast, ← zpow_sub₀ two_ne_zero]
    congr 2
    ring
  have hcoarse := (h.mul_right (Nat.two_pow_pos c)).of_dvd
    (Nat.pow_succ' ▸ two_pow_dvd_half (fmt := fmt) (Nat.succ_le_succ hc))
  rw [hunit, ← Nat.shiftLeft_eq] at hcoarse
  exact ⟨hlo, hhi, hcoarse, fun hneg => absurd hneg (by omega)⟩

namespace Reading
variable (h : Reading fmt exp sig x)
include h

theorem pos : 0 < x := by
  have hle : fmt.half ≤ sig := by
    have hhalf : 2 * fmt.half ≤ fmt.top := by cases fmt <;> decide
    have := h.top_le
    omega
  have hpos := (Nat.cast_pos.mpr (half_pos fmt)).trans_le ((h.coarse _ dvd_rfl).1.mp hle)
  exact (div_pos_iff_of_pos_right (by positivity)).mp hpos

theorem log_eq : Int.log 2 x = exp + fmt.emin := by
  have hpos : (0 : ℚ) < 2 ^ (exp + fmt.emin - fmt.t - fmt.g) := by positivity
  have hlead (i : Nat) : ((2 ^ (fmt.t + fmt.g + i) : Nat) : ℚ) * 2 ^ (exp + fmt.emin - fmt.t - fmt.g) =
      ((2 : Nat) : ℚ) ^ (exp + fmt.emin + i) := by
    rw [Nat.cast_pow, ← zpow_natCast, Nat.cast_ofNat, ← zpow_add₀ two_ne_zero]
    congr 1
    push_cast
    ring
  have hdvd (i : Nat) : fmt.half ∣ 2 ^ (fmt.t + fmt.g + i) := Nat.pow_dvd_pow 2 (by omega)
  have hlo : ((2 : Nat) : ℚ) ^ (exp + fmt.emin) ≤ x := by
    have := (h.coarse _ (hdvd 0)).1.mp (by simpa [top_eq] using h.top_le)
    rwa [le_div_iff₀ hpos, hlead, Nat.cast_zero, add_zero] at this
  have hhi : x < ((2 : Nat) : ℚ) ^ (exp + fmt.emin + 1) := by
    have := (h.coarse.gt_iff (hdvd 1)).mp (by rw [pow_succ', ← top_eq]; exact h.lt_top)
    rwa [div_lt_iff₀ hpos, hlead, Nat.cast_one] at this
  have hge := (Int.zpow_le_iff_le_log one_lt_two h.pos).mp hlo
  have hlt := (Int.lt_zpow_iff_log_lt one_lt_two h.pos).mp hhi
  omega

theorem exp_unique (h' : Reading fmt exp' sig' x) : exp = exp' :=
  add_right_cancel (h.log_eq.symm.trans h'.log_eq)

end Reading

/-- Significands that compare alike with the multiples of half a last place round alike. -/
theorem roundedSig_eq_of_coarse (h : ComparesLike fmt.half sig y) (h' : ComparesLike fmt.half sig' y) (s : Bool)
    (rm : RoundingMode) :
    roundedSig fmt s rm sig = roundedSig fmt s rm sig' ∧ (sig % 2 ^ fmt.g = 0 ↔ sig' % 2 ^ fmt.g = 0) := by
  have hx := h.roundsFrom (half_pos fmt)
  have hx' := h'.roundsFrom (half_pos fmt)
  rw [← div_one (y / _), ← zpow_zero (2 : ℚ), two_mul_half] at hx hx'
  exact ⟨Nat.cast_injective (R := ℤ) ((hx.rndCount_eq s rm).symm.trans (hx'.rndCount_eq s rm)),
    (hx.rnd_eq_self_iff s rm).symm.trans (hx'.rnd_eq_self_iff s rm)⟩

theorem overflows_iff :
    Overflows fmt s rm exp sig ↔ exp > fmt.expMax - 2 ∨ exp = fmt.expMax - 2 ∧ 2 ^ fmt.p ≤ roundedSig fmt s rm sig := by
  rw [Overflows, two_pow_p_le_roundedSig_iff]

/-- With no denormalising shift the engine's result is a function of the rounded significand and of what was lost. -/
theorem roundPack_eq_of_coarse (hexp : 0 ≤ exp) (h : ComparesLike fmt.half sig y)
    (h' : ComparesLike fmt.half sig' y) : roundPack fmt s exp sig rm tm = roundPack fmt s exp sig' rm tm := by
  obtain ⟨hround, hlost⟩ := roundedSig_eq_of_coarse h h' s rm
  have hover : Overflows fmt s rm exp sig ↔ Overflows fmt s rm exp sig' := by rw [overflows_iff, overflows_iff, hround]
  by_cases hov : Overflows fmt s rm exp sig
  · rw [roundPack_of_overflows hov, roundPack_of_overflows (hover.mp hov)]
  · rw [roundPack_of_not_overflows hov, roundPack_of_not_overflows (mt hover.mpr hov), denormSig_of_nonneg hexp,
      denormSig_of_nonneg hexp, roundFinish_eq, roundFinish_eq, hround]
    simp [not_lt.mpr hexp, bne, Bool.beq_eq_decide_eq, hlost]

/-- The engine's result is a function of the magnitude that is read. -/
theorem Reading.roundPack_eq (h : Reading fmt exp sig x) (h' : Reading fmt exp' sig' x) :
    roundPack fmt s exp sig rm tm = roundPack fmt s exp' sig' rm tm := by
  obtain rfl := h.exp_unique h'
  obtain hneg | hnonneg := lt_or_ge exp 0
  · have hfine := h.fine hneg
    have hfine' := h'.fine hneg
    rw [eq_of_even_comparisons (fun m hm => (hfine m hm).2.trans (hfine' m hm).2.symm)
      fun m hm => (hfine m hm).1.trans (hfine' m hm).1.symm]
  · exact roundPack_eq_of_coarse hnonneg h.coarse h'.coarse

end Reading

section Representable
variable {fmt : Fmt} {a : Pat fmt} {exp : Int} {sig : Nat}

/-- The significand adds its hidden bit to the exponent field. -/
theorem pack_unpack_m (a : Pat fmt) : pack fmt (signOf fmt a) (expOf fmt a - 1 : Nat) (unpack fmt a).m = a := by
  have hf := fracOf_lt fmt a
  have ht := Nat.two_pow_pos fmt.t
  conv_rhs => rw [← pack_fields fmt a]
  by_cases he : expOf fmt a = 0
  · simp [unpack, he]
  · have hcarry : expOf fmt a - 1 + 1 = expOf fmt a := Nat.succ_pred he
    simp only [unpack, if_neg he]
    rw [pack_carry, Nat.add_div_left _ ht, Nat.add_mod_left, Nat.div_eq_of_lt hf, Nat.mod_eq_of_lt hf, hcarry]

/-- A zero and a subnormal share the exponent of the smallest normal binade. -/
theorem unpack_q_eq (a : Pat fmt) : (unpack fmt a).q = (expOf fmt a - 1 : Nat) + fmt.emin - fmt.t := by
  unfold unpack Fmt.emin
  split <;> dsimp only <;> omega

theorem bitlen_eq_of_bounds {m n : Nat} (hlo : 2 ^ n ≤ m) (hhi : m < 2 ^ (n + 1)) : bitlen m = n + 1 := by
  refine (bitlen_le_of_lt hhi).antisymm ?_
  rw [Nat.succ_le_iff, ← Nat.pow_lt_pow_iff_right Nat.one_lt_two]
  exact hlo.trans_lt (lt_two_pow_bitlen m)

theorem unpack_m_pos_of_magOf (h : 0 < magOf ℚ fmt a) : 0 < (unpack fmt a).m := by
  rw [magOf_pos_iff, ← Bool.not_eq_true, ← unpack_m_eq_zero] at h
  exact Nat.pos_of_ne_zero h

/-- The exponent field of a pattern, one down, is the engine's exponent after any denormalising shift. -/
theorem EngineInput.toNat_exp_of_magOf (h : EngineInput fmt exp sig (magOf ℚ fmt a)) : exp.toNat = expOf fmt a - 1 := by
  have hlog := h.log_eq
  have hpos : (0 : ℚ) < 2 ^ (unpack fmt a).q := by positivity
  have hf := fracOf_lt fmt a
  rw [magOf, log_eq_of_bitlen (unpack_m_pos_of_magOf h.pos) le_rfl (mul_lt_mul_of_pos_right (lt_add_one _) hpos),
    unpack_q_eq] at hlog
  by_cases he : expOf fmt a = 0
  · have hlen : bitlen (unpack fmt a).m ≤ fmt.t := bitlen_le_of_lt (by simpa [unpack, he] using hf)
    omega
  · have hlen : bitlen (unpack fmt a).m = fmt.t + 1 := by
      apply bitlen_eq_of_bounds <;> simp only [unpack, if_neg he, pow_succ] <;> omega
    omega

/-- A finite pattern is its own rounding, in every mode and with no flag. -/
theorem roundPack_of_magOf (ha : isFinite fmt a = true) (h : EngineInput fmt exp sig (magOf ℚ fmt a))
    (rm : RoundingMode) (tm : Tininess) : roundPack fmt (signOf fmt a) exp sig rm tm = (a, noFlags) := by
  have hexp := h.toNat_exp_of_magOf
  have hdenorm : denormSig fmt exp sig = 2 ^ fmt.g * (unpack fmt a).m := by
    have heven : 2 ∣ 2 ^ fmt.g := dvd_pow_self 2 (by cases fmt <;> decide)
    refine (h.denormSig_reads.eq_iff (heven.mul_right _)).mpr ?_
    rw [hexp, magOf, unpack_q_eq, mul_div_assoc, ← zpow_sub₀ two_ne_zero, sub_sub_cancel, zpow_natCast, mul_comm]
    push_cast
    rfl
  have hover : ¬ Overflows fmt (signOf fmt a) rm exp sig := by
    have hm := unpack_m_lt fmt a
    have he : expOf fmt a < fmt.expMax := by simpa [isFinite] using ha
    have hmin : 3 ≤ fmt.expMax := by cases fmt <;> decide
    rw [overflows_iff]
    rintro (hgt | ⟨heq, hcarry⟩)
    · omega
    · rw [← denormSig_of_nonneg (sig := sig) (show 0 ≤ exp by omega), hdenorm, roundedSig, Nat.mul_mod_right,
        roundQuot_zero, Nat.mul_div_cancel_left _ (Nat.two_pow_pos _)] at hcarry
      omega
  rw [roundPack_of_not_overflows hover, hexp, hdenorm, roundFinish_of_dvd (Nat.dvd_mul_right ..),
    Nat.mul_div_cancel_left _ (Nat.two_pow_pos _), if_neg (unpack_m_pos_of_magOf h.pos).ne', pack_unpack_m]
  simp [flagIf, noFlags]

end Representable

section Sum
variable {fmt : Fmt} {neg : Bool} {a b z : Pat fmt} {s : Bool} {x : ℚ} {exp : Int} {sig : Nat} {rm : RoundingMode}
  {tm : Tininess}

/-- The kernel's result from any reading of the magnitude of the sum. -/
theorem addSub_of_reading (ha : isFinite fmt a = true) (hb : isFinite fmt b = true) (h : Reading fmt exp sig x)
    (hsum : sumValue fmt neg a b = withSign s x) :
    addSub fmt neg a b rm tm = roundPack fmt s exp sig rm tm := by
  have hne : sumValue fmt neg a b ≠ 0 := by rw [hsum, Ne, withSign_eq_zero_iff]; exact h.pos.ne'
  obtain ⟨exp', sig', hin, hres⟩ := addSub_eq_roundPack ha hb hne
  rw [hsum, abs_withSign s h.pos] at hin
  rw [hres, hsum, hin.reading.roundPack_eq h]
  simp only [withSign_neg_iff s h.pos, Bool.decide_eq_true]

/-- The kernel returns a sum that is the value of a pattern. -/
theorem addSub_of_magOf (ha : isFinite fmt a = true) (hb : isFinite fmt b = true) (hz : isFinite fmt z = true)
    (hx : 0 < magOf ℚ fmt z) (hsum : sumValue fmt neg a b = withSign (signOf fmt z) (magOf ℚ fmt z)) :
    addSub fmt neg a b rm tm = (z, noFlags) := by
  have hne : sumValue fmt neg a b ≠ 0 := by rw [hsum, Ne, withSign_eq_zero_iff]; exact hx.ne'
  obtain ⟨exp, sig, hin, -⟩ := addSub_eq_roundPack ha hb hne
  rw [hsum, abs_withSign _ hx] at hin
  rw [addSub_of_reading ha hb hin.reading hsum, roundPack_of_magOf hz hin]

end Sum

end Sys2Proof.Machine
end

section
/-! Negating a pattern flips its sign bit and keeps every other field (40_bit_pack_unpack.md R90), so the class tests
and the magnitude do not see it. -/

namespace Sys2Proof.Machine

section
variable (fmt : Fmt) (a : Pat fmt)

@[simp] theorem signOf_negPat : signOf fmt (negPat fmt a) = !signOf fmt a := by
  have htop : (BitVec.ofNat fmt.k (2 ^ (fmt.k - 1))).getLsbD (fmt.k - 1) = true := by cases fmt <;> decide
  rw [signOf, negPat, BitVec.getLsbD_xor, htop, Bool.xor_true, signOf]

/-- A field that the sign bit is not in. -/
theorem extractLsb'_negPat {start len : Nat}
    (h : (BitVec.ofNat fmt.k (2 ^ (fmt.k - 1))).extractLsb' start len = 0) :
    (negPat fmt a).extractLsb' start len = a.extractLsb' start len := by
  rw [negPat, BitVec.extractLsb'_xor, h]
  exact BitVec.xor_zero

@[simp] theorem expOf_negPat : expOf fmt (negPat fmt a) = expOf fmt a := by
  rw [expOf, extractLsb'_negPat, expOf]
  cases fmt <;> decide

@[simp] theorem fracOf_negPat : fracOf fmt (negPat fmt a) = fracOf fmt a := by
  rw [fracOf, extractLsb'_negPat, fracOf]
  cases fmt <;> decide

@[simp] theorem isNaN_negPat : isNaN fmt (negPat fmt a) = isNaN fmt a := by simp [isNaN]
@[simp] theorem isInf_negPat : isInf fmt (negPat fmt a) = isInf fmt a := by simp [isInf]
@[simp] theorem isZero_negPat : isZero fmt (negPat fmt a) = isZero fmt a := by simp [isZero]
@[simp] theorem isFinite_negPat : isFinite fmt (negPat fmt a) = isFinite fmt a := by simp [isFinite]

@[simp] theorem isSigNaN_negPat : isSigNaN fmt (negPat fmt a) = isSigNaN fmt a := by
  have hquiet : (BitVec.ofNat fmt.k (2 ^ (fmt.k - 1))).getLsbD (fmt.t - 1) = false := by cases fmt <;> decide
  rw [isSigNaN_eq, isSigNaN_eq, isNaN_negPat, negPat, BitVec.getLsbD_xor, hquiet, Bool.xor_false]

@[simp] theorem unpack_negPat_m : (unpack fmt (negPat fmt a)).m = (unpack fmt a).m := by
  by_cases he : expOf fmt a = 0 <;> simp [unpack, he]

@[simp] theorem unpack_negPat_q : (unpack fmt (negPat fmt a)).q = (unpack fmt a).q := by
  by_cases he : expOf fmt a = 0 <;> simp [unpack, he]

@[simp] theorem valueOf_negPat : valueOf ℚ fmt (negPat fmt a) = -valueOf ℚ fmt a := by
  cases hs : signOf fmt a <;> simp [valueOf, magOf, hs]

theorem negPat_negPat : negPat fmt (negPat fmt a) = a := by
  rw [negPat, negPat, BitVec.xor_assoc, BitVec.xor_self, BitVec.xor_zero]

/-- The flipped sign bit, as an addition. -/
theorem negPat_eq_add : negPat fmt a = a + BitVec.ofNat fmt.k (2 ^ (fmt.k - 1)) := by
  have ha := toNat_eq_fields fmt a
  have hneg := toNat_eq_fields fmt (negPat fmt a)
  rw [signOf_negPat, expOf_negPat, fracOf_negPat] at hneg
  have hlt := (negPat fmt a).isLt
  have hs : (!signOf fmt a).toNat + (signOf fmt a).toNat = 1 := by cases signOf fmt a <;> rfl
  apply BitVec.eq_of_toNat_eq
  rw [BitVec.toNat_add, BitVec.toNat_ofNat]
  cases fmt <;> simp only [Fmt.k, Fmt.t] at ha hneg hlt ⊢ <;> omega

/-- Packing wraps, and still the sign is one bit of the result. -/
theorem negPat_pack (s : Bool) (e : Int) (f : Nat) : negPat fmt (pack fmt s e f) = pack fmt (!s) e f := by
  have hfalse : negPat fmt (pack fmt false e f) = pack fmt true e f := by
    rw [negPat_eq_add, pack, pack, ← BitVec.ofInt_natCast, ← BitVec.ofInt_add]
    congr 1
    push_cast
    simp only [Bool.toNat_false, Bool.toNat_true]
    ring
  cases s with
  | false => exact hfalse
  | true => rw [← hfalse, negPat_negPat, Bool.not_true]

end

end Sys2Proof.Machine
end

section
/-! The laws of addition (45_add_sub.md R188). The kernel's result on finite operands is a function of the exact sum, so
what the sum does not see the result does not see. -/

namespace Sys2Proof.Machine

section Laws
variable {fmt : Fmt} {a b : Pat fmt} (rm : RoundingMode) (tm : Tininess)

/-- Two pairs of finite operands with one nonzero exact sum. -/
theorem addSub_congr_sumValue {neg neg' : Bool} {a' b' : Pat fmt} (ha : isFinite fmt a = true)
    (hb : isFinite fmt b = true) (ha' : isFinite fmt a' = true) (hb' : isFinite fmt b' = true)
    (h : sumValue fmt neg a b ≠ 0) (heq : sumValue fmt neg' a' b' = sumValue fmt neg a b) :
    addSub fmt neg' a' b' rm tm = addSub fmt neg a b rm tm := by
  obtain ⟨exp, sig, hin, hres⟩ := addSub_eq_roundPack ha hb h
  obtain ⟨exp', sig', hin', hres'⟩ := addSub_eq_roundPack ha' hb' (heq ▸ h)
  rw [heq] at hin'
  rw [hres, hres', heq, hin'.reading.roundPack_eq hin.reading]

theorem addSub_comm_of_finite (ha : isFinite fmt a = true) (hb : isFinite fmt b = true) :
    addSub fmt false a b rm tm = addSub fmt false b a rm tm := by
  by_cases hsum : sumValue fmt false a b = 0
  · rw [addSub_of_sumValue_eq_zero rm tm ha hb hsum,
      addSub_of_sumValue_eq_zero rm tm hb ha ((sumValue_comm b a).trans hsum)]
    simp only [Bool.xor_false]
    by_cases hz : isZero fmt a = true ∧ isZero fmt b = true ∧ signOf fmt a = signOf fmt b
    · obtain ⟨hza, hzb, hs⟩ := hz
      rw [if_pos ⟨hza, hzb, hs⟩, if_pos ⟨hzb, hza, hs.symm⟩, hs]
    · rw [if_neg hz, if_neg fun ⟨hzb, hza, hs⟩ => hz ⟨hza, hzb, hs.symm⟩]
  · exact addSub_congr_sumValue rm tm hb ha ha hb (sumValue_comm a b ▸ hsum) (sumValue_comm a b)

theorem addSub_comm_of_isInf (ha : isInf fmt a = true) (hb : isNaN fmt b = false) :
    addSub fmt false a b rm tm = addSub fmt false b a rm tm := by
  have hinf := eq_infPat_of_isInf ha
  cases hib : isInf fmt b with
  | false =>
    have hbf := isFinite_of_not_isNaN_not_isInf hb hib
    rw [addSub_inf_finite rm tm false ha hbf, addSub_finite_inf rm tm false hbf ha, Bool.xor_false, ← hinf]
  | true =>
    have hinf' := eq_infPat_of_isInf hib
    rw [addSub_inf_inf rm tm false ha hib, addSub_inf_inf rm tm false hib ha]
    simp only [Bool.xor_false, eq_comm (a := signOf fmt b)]
    split_ifs with hs
    · rw [hinf, hs, ← hinf']
    · rfl

/-- R188 (a). -/
theorem addSub_comm (a b : Pat fmt) : addSub fmt false a b rm tm = addSub fmt false b a rm tm := by
  by_cases hnan : isNaN fmt a ∨ isNaN fmt b
  · rw [addSub_of_isNaN rm tm false hnan, addSub_of_isNaN rm tm false hnan.symm, nvIf_congr or_comm]
  obtain ⟨hna, hnb⟩ : isNaN fmt a = false ∧ isNaN fmt b = false := by simpa using hnan
  cases hia : isInf fmt a with
  | true => exact addSub_comm_of_isInf rm tm hia hnb
  | false =>
    cases hib : isInf fmt b with
    | true => exact (addSub_comm_of_isInf rm tm hib hna).symm
    | false =>
      exact addSub_comm_of_finite rm tm (isFinite_of_not_isNaN_not_isInf hna hia)
        (isFinite_of_not_isNaN_not_isInf hnb hib)

/-- R188 (c): the sign of the second operand is read only with `neg`. -/
theorem addSub_true_eq_negPat : addSub fmt true a b rm tm = addSub fmt false a (negPat fmt b) rm tm := by
  simp [addSub, nanResult]

/-- R188 (d). -/
theorem addSub_zero_right (hn : isNaN fmt a = false) (hz : isZero fmt a = false) (hb : isZero fmt b = true) :
    addSub fmt false a b rm tm = (a, noFlags) := by
  have hbf := isFinite_of_isZero hb
  cases hia : isInf fmt a with
  | true => exact addSub_inf_finite rm tm false hia hbf
  | false =>
    have ha := isFinite_of_not_isNaN_not_isInf hn hia
    refine addSub_of_magOf ha hbf ha ((magOf_pos_iff a).mpr hz) ?_
    rw [sumValue_eq, (magOf_eq_zero_iff b).mpr hb, (withSign_eq_zero_iff _).mpr rfl, add_zero]

end Laws

theorem patOf_opsOf_a (fmt : Fmt) (a b c : Pat fmt) : patOf fmt (opsOf fmt a b c).a = a := patOf_setWidth fmt a
theorem patOf_opsOf_b (fmt : Fmt) (a b c : Pat fmt) : patOf fmt (opsOf fmt a b c).b = b := patOf_setWidth fmt b

theorem answers_addSub_opsOf {fmt : Fmt} {a b c z : Pat fmt} {neg : Bool} {rm : RoundingMode} {exact : Bool} {s : State}
    {fl : FlagSet} (h : addSub fmt neg a b rm s.tininess = (z, fl)) :
    Answers (addSubInstr fmt neg rm exact (opsOf fmt a b c)) s (zext z) fl := by
  refine answers_of_exec (exec_addSubInstr ..) ?_
  rwa [patOf_opsOf_a, patOf_opsOf_b]

/-- Settles O52: the kernel reads the sum, and the sign of the second operand only with `neg`. -/
theorem addLaws : Obligations.AddLaws := by
  intro fmt a b c rm exact s
  refine ⟨?_, ?_, fun hn hz hb => ?_⟩
  · simp only [exec_addSubInstr, patOf_opsOf_a, patOf_opsOf_b, addSub_comm rm s.tininess a b]
  · simp only [exec_addSubInstr, patOf_opsOf_a, patOf_opsOf_b, addSub_true_eq_negPat]
  · exact answers_addSub_opsOf (addSub_zero_right rm _ (by simpa using hn) (by simpa using hz) hb)

/-- The result of the negated value: the sign flipped, the flags kept. -/
def negResult {fmt : Fmt} (r : FloatResult fmt) : FloatResult fmt := (negPat fmt r.1, r.2)

section Mirror
variable {fmt : Fmt} (s : Bool) (rm : RoundingMode) {exp : Int} {sig : Nat} {tm : Tininess}

theorem roundInc_mirrored : roundInc fmt (!s) (mirrored rm) = roundInc fmt s rm := by
  cases rm <;> cases s <;> rfl

theorem roundedSig_mirrored : roundedSig fmt (!s) (mirrored rm) sig = roundedSig fmt s rm sig := by
  cases rm <;> cases s <;> rfl

theorem overflowTable_mirrored : overflowTable fmt (!s) (mirrored rm) = negPat fmt (overflowTable fmt s rm) := by
  cases fmt <;> cases s <;> cases rm <;> decide

/-- The engine on a negated value in the mirrored mode. -/
theorem roundPack_mirrored :
    roundPack fmt (!s) exp sig (mirrored rm) tm = negResult (roundPack fmt s exp sig rm tm) := by
  have hover : Overflows fmt (!s) (mirrored rm) exp sig ↔ Overflows fmt s rm exp sig := by
    rw [Overflows, roundInc_mirrored, Overflows]
  have htiny : isTiny fmt (!s) exp sig (mirrored rm) tm = isTiny fmt s exp sig rm tm := by
    rw [isTiny, roundInc_mirrored, isTiny]
  by_cases hov : Overflows fmt s rm exp sig
  · rw [roundPack_of_overflows hov, roundPack_of_overflows (hover.mpr hov), overflowTable_mirrored, negResult]
  · rw [roundPack_of_not_overflows hov, roundPack_of_not_overflows (mt hover.mp hov), htiny, roundFinish_eq,
      roundFinish_eq, roundedSig_mirrored, negResult, negPat_pack]

end Mirror

section SignSymmetry
variable {fmt : Fmt} {a b : Pat fmt} (rm : RoundingMode) (tm : Tininess)

theorem sumValue_negPat (fmt : Fmt) (a b : Pat fmt) :
    sumValue fmt false (negPat fmt a) (negPat fmt b) = -sumValue fmt false a b := by
  simp [sumValue, add_comm]

theorem addSub_mirrored_of_sumValue_ne_zero (ha : isFinite fmt a = true) (hb : isFinite fmt b = true)
    (h : sumValue fmt false a b ≠ 0) :
    addSub fmt false (negPat fmt a) (negPat fmt b) (mirrored rm) tm = negResult (addSub fmt false a b rm tm) := by
  have hneg := sumValue_negPat fmt a b
  obtain ⟨exp, sig, hin, hres⟩ := addSub_eq_roundPack ha hb h
  obtain ⟨exp', sig', hin', hres'⟩ := addSub_eq_roundPack (a := negPat fmt a) (b := negPat fmt b)
    (by rwa [isFinite_negPat]) (by rwa [isFinite_negPat]) (by rwa [hneg, neg_ne_zero])
  have hsign : decide (-sumValue fmt false a b < 0) = !decide (sumValue fmt false a b < 0) := by
    simp [← decide_not, le_iff_lt_or_eq, h.symm]
  rw [hneg, abs_neg] at hin'
  rw [hres, hres', hneg, hsign, hin'.reading.roundPack_eq hin.reading, roundPack_mirrored]

/-- Operands of one sign have the sum 0 only when both are zeros. -/
theorem isZero_of_sumValue_eq_zero (hs : signOf fmt a = signOf fmt b) (h : sumValue fmt false a b = 0) :
    isZero fmt a = true ∧ isZero fmt b = true := by
  rw [sumValue_of_like (by rwa [Bool.xor_false]), withSign_eq_zero_iff,
    add_eq_zero_iff_of_nonneg (magOf_nonneg a) (magOf_nonneg b)] at h
  exact h.imp (magOf_eq_zero_iff a).mp (magOf_eq_zero_iff b).mp

theorem addSub_mirrored_of_finite (ha : isFinite fmt a = true) (hb : isFinite fmt b = true)
    (h : signOf fmt a = signOf fmt b ∨ sumValue fmt false a b ≠ 0) :
    addSub fmt false (negPat fmt a) (negPat fmt b) (mirrored rm) tm = negResult (addSub fmt false a b rm tm) := by
  by_cases hsum : sumValue fmt false a b = 0
  · have hs := h.resolve_right (not_not_intro hsum)
    obtain ⟨hza, hzb⟩ := isZero_of_sumValue_eq_zero hs hsum
    rw [addSub_of_like_zeros rm tm hza hzb (by simp [hs]),
      addSub_of_like_zeros _ tm (by rwa [isZero_negPat]) (by rwa [isZero_negPat]) (by simp [hs]), signOf_negPat,
      negResult, zeroPat, zeroPat, negPat_pack]
  · exact addSub_mirrored_of_sumValue_ne_zero rm tm ha hb hsum

/-- R188 (b). -/
theorem addSub_mirrored (hna : isNaN fmt a = false) (hnb : isNaN fmt b = false)
    (h : signOf fmt a = signOf fmt b ∨
      ¬ (isInf fmt a ∧ isInf fmt b) ∧ (isFinite fmt a → isFinite fmt b → sumValue fmt false a b ≠ 0)) :
    addSub fmt false (negPat fmt a) (negPat fmt b) (mirrored rm) tm = negResult (addSub fmt false a b rm tm) := by
  have hia' := isInf_negPat fmt a
  have hib' := isInf_negPat fmt b
  cases hia : isInf fmt a with
  | true =>
    cases hib : isInf fmt b with
    | true =>
      have hs : signOf fmt a = signOf fmt b := h.resolve_right fun h => h.1 ⟨hia, hib⟩
      rw [addSub_inf_inf _ tm false (hia'.trans hia) (hib'.trans hib), addSub_inf_inf rm tm false hia hib,
        if_pos (by simp [hs]), if_pos (by simp [hs]), negResult]
    | false =>
      have hb := isFinite_of_not_isNaN_not_isInf hnb hib
      rw [addSub_inf_finite _ tm false (hia'.trans hia) ((isFinite_negPat fmt b).trans hb),
        addSub_inf_finite rm tm false hia hb, negResult]
  | false =>
    have ha := isFinite_of_not_isNaN_not_isInf hna hia
    cases hib : isInf fmt b with
    | true =>
      rw [addSub_finite_inf _ tm false ((isFinite_negPat fmt a).trans ha) (hib'.trans hib),
        addSub_finite_inf rm tm false ha hib, negResult, negPat_infPat, signOf_negPat, Bool.xor_false, Bool.xor_false]
    | false =>
      have hb := isFinite_of_not_isNaN_not_isInf hnb hib
      exact addSub_mirrored_of_finite rm tm ha hb (h.imp_right fun h => h.2 ha hb)

end SignSymmetry

/-- Settles O53: negated operands have the negated sum, and the mirrored mode rounds it to the negated result. -/
theorem addSignSymmetry : Obligations.AddSignSymmetry := by
  intro fmt a b c rm exact s hna hnb h
  exact ⟨_, _, answers_addSub_opsOf rfl, answers_addSub_opsOf (addSub_mirrored rm s.tininess hna hnb h)⟩

end Sys2Proof.Machine
end

section
/-! The adder's datapath (45_add_sub.md R181, R182). The operand of the smaller exponent is shifted with jam, so the sum
or difference compares with the even numbers as the exact one does; moving it up a place keeps what the engine reads.
On equal exponents nothing is lost, and a result made without the engine has the exact value. -/

namespace Sys2Proof.Machine

section Compare
variable {n k : Nat} {y : ℚ} (h : ComparesLike 2 n y) (hk : 2 ∣ k)
include h hk

/-- An even number can be added on both sides. -/
theorem ComparesLike.even_add : ComparesLike 2 (k + n) (k + y) := by
  intro m hm
  have hy : 0 ≤ y := by simpa using (h 0 (dvd_zero 2)).1.mp (Nat.zero_le n)
  obtain hle | hlt := le_or_gt k m
  · obtain ⟨j, rfl⟩ := Nat.exists_eq_add_of_le hle
    obtain ⟨hge, hle⟩ := h j ((Nat.dvd_add_right hk).mp hm)
    simp only [Nat.cast_add, add_le_add_iff_left, hge, hle, and_self]
  · have hlt' : (m : ℚ) < k := Nat.cast_lt.mpr hlt
    exact ⟨iff_of_true (by omega) (by linarith), iff_of_false (by omega) (by linarith)⟩

/-- Both sides can be taken from an even number. -/
theorem ComparesLike.even_sub (hn : n ≤ k) : ComparesLike 2 (k - n) (k - y) := by
  intro m hm
  have hy : 0 ≤ y := by simpa using (h 0 (dvd_zero 2)).1.mp (Nat.zero_le n)
  obtain hle | hlt := le_or_gt m k
  · obtain ⟨j, rfl⟩ := Nat.exists_eq_add_of_le hle
    obtain ⟨hge, hle⟩ := h j ((Nat.dvd_add_right hm).mp hk)
    rw [le_sub_comm, sub_le_comm, Nat.cast_add, add_sub_cancel_left, ← hge, ← hle]
    omega
  · have hlt' : (k : ℚ) < m := Nat.cast_lt.mpr hlt
    exact ⟨iff_of_false (by omega) (by linarith), iff_of_true (by omega) (by linarith)⟩

end Compare

/-! ## Aligned significands -/

section Aligned
variable {fmt : Fmt} {a b : Pat fmt} {pre : Nat}

theorem alignedFrac_eq (pre : Nat) (a : Pat fmt) :
    alignedFrac fmt pre a = (if expOf fmt a = 0 then 2 * (unpack fmt a).m else (unpack fmt a).m) * 2 ^ pre := by
  by_cases he : expOf fmt a = 0
  · simp only [alignedFrac, unpack, he, Nat.shiftLeft_eq, if_true, ne_eq, not_true_eq_false, if_false]
    ring
  · simp only [alignedFrac, unpack, he, Nat.shiftLeft_eq, if_true, ne_eq, not_false_eq_true, if_false]
    ring

theorem alignedFrac_lt (pre : Nat) (a : Pat fmt) : alignedFrac fmt pre a < 2 ^ (fmt.p + pre) := by
  have hf := fracOf_lt fmt a
  have hm := unpack_m_lt fmt a
  have hp : 2 ^ fmt.p = 2 * 2 ^ fmt.t := pow_succ' 2 fmt.t
  rw [alignedFrac_eq, Nat.pow_add]
  refine Nat.mul_lt_mul_of_pos_right ?_ (Nat.two_pow_pos pre)
  split_ifs with he
  · simp only [unpack, he, if_true]
    omega
  · exact hm

theorem le_alignedFrac (he : expOf fmt a ≠ 0) (pre : Nat) : 2 ^ (fmt.t + pre) ≤ alignedFrac fmt pre a := by
  rw [alignedFrac_eq, if_neg he, Nat.pow_add]
  refine Nat.mul_le_mul_right _ ?_
  simp [unpack, he]

theorem alignedFrac_of_ne (he : expOf fmt a ≠ 0) :
    alignedFrac fmt pre a = 2 ^ fmt.t <<< pre + fracOf fmt a <<< pre := by
  rw [alignedFrac, if_pos he, Nat.add_comm]

/-- The exponent of the last place of a significand with the exponent field `e` and `pre` places below the fraction. -/
def alignUnit (fmt : Fmt) (e pre : Nat) : Int := e + fmt.emin - 1 - fmt.t - pre

/-- R181: the doubling makes up for the exponent field of a zero or a subnormal. -/
theorem magOf_eq_alignedFrac (pre : Nat) (a : Pat fmt) :
    magOf ℚ fmt a = alignedFrac fmt pre a * 2 ^ alignUnit fmt (expOf fmt a) pre := by
  rw [alignedFrac_eq, magOf, unpack_q_eq, alignUnit, Nat.cast_mul, Nat.cast_pow, Nat.cast_ofNat, mul_assoc,
    ← zpow_natCast, ← zpow_add₀ two_ne_zero]
  split_ifs with he
  · have hq : ((expOf fmt a - 1 : Nat) : Int) + fmt.emin - fmt.t =
        (pre + ((expOf fmt a : Int) + fmt.emin - 1 - fmt.t - pre)) + 1 := by omega
    rw [hq, zpow_add_one₀ two_ne_zero]
    push_cast
    ring
  · congr 2
    omega

/-- The significand of the operand `a`, moved to the larger exponent of `b` (R181, R182). -/
def shiftedFrac (fmt : Fmt) (pre : Nat) (a b : Pat fmt) : Nat :=
  shiftRightJam fmt.k (alignedFrac fmt pre a) (expOf fmt b - expOf fmt a)

theorem two_dvd_alignedFrac (hpre : pre ≠ 0) (a : Pat fmt) : 2 ∣ alignedFrac fmt pre a := by
  rw [alignedFrac_eq]
  exact (dvd_pow_self 2 hpre).mul_left _

theorem alignedFrac_lt_two_pow_k (hpre : fmt.p + pre ≤ fmt.k) (a : Pat fmt) : alignedFrac fmt pre a < 2 ^ fmt.k :=
  (alignedFrac_lt pre a).trans_le (Nat.pow_le_pow_right Nat.two_pos hpre)

theorem magOf_div_own_unit (pre : Nat) (a : Pat fmt) :
    magOf ℚ fmt a / 2 ^ alignUnit fmt (expOf fmt a) pre = alignedFrac fmt pre a := by
  rw [magOf_eq_alignedFrac pre, mul_div_cancel_right₀ _ (by positivity)]

theorem magOf_div_unit (h : expOf fmt a < expOf fmt b) :
    magOf ℚ fmt a / 2 ^ alignUnit fmt (expOf fmt b) pre =
      alignedFrac fmt pre a / 2 ^ (expOf fmt b - expOf fmt a) := by
  have hexp : alignUnit fmt (expOf fmt b) pre =
      alignUnit fmt (expOf fmt a) pre + (expOf fmt b - expOf fmt a : Nat) := by
    simp only [alignUnit]
    omega
  rw [magOf_eq_alignedFrac pre, hexp, zpow_add₀ two_ne_zero, zpow_natCast, mul_comm ((2 : ℚ) ^ _),
    mul_div_mul_right _ _ (by positivity)]

/-- Each place of the distance is worth a factor of two. -/
theorem shiftedFrac_le (hpre : fmt.p + pre ≤ fmt.k) {i : Nat} (hi : 1 ≤ i)
    (hd : fmt.p + pre ≤ i + (expOf fmt b - expOf fmt a)) : shiftedFrac fmt pre a b ≤ 2 ^ i := by
  have heven : 2 ∣ 2 ^ i := dvd_pow_self 2 (by omega)
  rw [shiftedFrac, shiftRightJam_le_even_iff _ (alignedFrac_lt_two_pow_k hpre a) heven, ← Nat.pow_add]
  exact (alignedFrac_lt pre a).le.trans (Nat.pow_le_pow_right Nat.two_pos hd)

section
variable (hpre : fmt.p + pre ≤ fmt.k) (h : expOf fmt a < expOf fmt b)
include hpre h

theorem shiftedFrac_reads :
    ComparesLike 2 (shiftedFrac fmt pre a b) (magOf ℚ fmt a / 2 ^ alignUnit fmt (expOf fmt b) pre) := by
  rw [magOf_div_unit h]
  exact (comparesLike_self 2 _).jam _ (alignedFrac_lt_two_pow_k hpre a)

theorem shiftedFrac_lt (hpre0 : pre ≠ 0) : shiftedFrac fmt pre a b < alignedFrac fmt pre b := by
  have hd : 1 ≤ expOf fmt b - expOf fmt a := by omega
  rw [← not_le, shiftedFrac,
    even_le_shiftRightJam_iff _ (alignedFrac_lt_two_pow_k hpre a) (two_dvd_alignedFrac hpre0 b), not_le]
  calc alignedFrac fmt pre a < 2 ^ (fmt.p + pre) := alignedFrac_lt pre a
    _ = 2 ^ (fmt.t + pre) * 2 ^ 1 := by rw [← Nat.pow_add, Fmt.p, Nat.add_right_comm]
    _ ≤ alignedFrac fmt pre b * 2 ^ (expOf fmt b - expOf fmt a) :=
      Nat.mul_le_mul (le_alignedFrac (Nat.ne_zero_of_lt h) pre) (Nat.pow_le_pow_right Nat.two_pos hd)

/-- R181: the sum of the aligned significands reads as the sum of the magnitudes. -/
theorem aligned_add_reads (hpre0 : pre ≠ 0) :
    ComparesLike 2 (alignedFrac fmt pre b + shiftedFrac fmt pre a b)
      ((magOf ℚ fmt b + magOf ℚ fmt a) / 2 ^ alignUnit fmt (expOf fmt b) pre) := by
  rw [add_div, magOf_div_own_unit]
  exact (shiftedFrac_reads hpre h).even_add (two_dvd_alignedFrac hpre0 b)

/-- R182: so does their difference. -/
theorem aligned_sub_reads (hpre0 : pre ≠ 0) (hle : shiftedFrac fmt pre a b ≤ alignedFrac fmt pre b) :
    ComparesLike 2 (alignedFrac fmt pre b - shiftedFrac fmt pre a b)
      ((magOf ℚ fmt b - magOf ℚ fmt a) / 2 ^ alignUnit fmt (expOf fmt b) pre) := by
  rw [sub_div, magOf_div_own_unit]
  exact (shiftedFrac_reads hpre h).even_sub (two_dvd_alignedFrac hpre0 b) hle

end

end Aligned

/-! ## Like effective signs (R181) -/

section AddMags
variable {fmt : Fmt} {a b : Pat fmt}

theorem hidden_eq (fmt : Fmt) : 2 ^ fmt.t <<< (fmt.g - 1) = 2 ^ (fmt.k - 3) := by cases fmt <;> rfl

/-- How R181 ends: a sum without a carry is moved up one place. -/
def finishSum (fmt : Fmt) (s : Bool) (e sz : Nat) (rm : RoundingMode) (tm : Tininess) : FloatResult fmt :=
  if sz < 2 * 2 ^ (fmt.k - 3) then roundPack fmt s ((e : Int) - 1) (sz <<< 1) rm tm else roundPack fmt s e sz rm tm

theorem reading_of_finishSum {e sz : Nat} {x : ℚ} (he : 1 ≤ e) (hlo : 2 ^ (fmt.k - 3) ≤ sz) (hhi : sz < fmt.top)
    (h : ComparesLike 2 sz (x / 2 ^ alignUnit fmt e (fmt.g - 1))) :
    ∃ exp sig, Reading fmt exp sig x ∧ ∀ s rm tm, finishSum fmt s e sz rm tm = roundPack fmt s exp sig rm tm := by
  have htop : fmt.top = 4 * 2 ^ (fmt.k - 3) := by cases fmt <;> rfl
  have hg : 1 ≤ fmt.g := by cases fmt <;> decide
  have hunit : alignUnit fmt e (fmt.g - 1) = e + fmt.emin - fmt.t - fmt.g := by simp only [alignUnit]; omega
  rw [hunit] at h
  by_cases hcarry : sz < 2 * 2 ^ (fmt.k - 3)
  · refine ⟨_, _, reading_of_jam (c := 1) h le_rfl (by omega) ?_ ?_, fun s rm tm => by simp [finishSum, hcarry]⟩ <;>
      rw [Nat.shiftLeft_eq] <;> omega
  · exact ⟨_, _, reading_of_jam (c := 0) h (Nat.zero_le 1) (by omega) (by rw [Nat.shiftLeft_zero]; omega) hhi,
      fun s rm tm => by simp [finishSum, hcarry]⟩

/-- R181 on unequal exponents, the smaller one shifted. -/
theorem addMags_of_lt (h : expOf fmt a < expOf fmt b) (s : Bool) (rm : RoundingMode) (tm : Tininess) :
    addMags fmt a b s rm tm =
      finishSum fmt s (expOf fmt b) (alignedFrac fmt (fmt.g - 1) b + shiftedFrac fmt (fmt.g - 1) a b) rm tm := by
  have hmax : max (expOf fmt a : Int) (expOf fmt b) = expOf fmt b := max_eq_right (by omega)
  simp only [addMags, if_neg h.ne, if_pos h, hmax, finishSum, alignedFrac_of_ne (Nat.ne_zero_of_lt h), hidden_eq,
    shiftedFrac, Nat.add_right_comm]

theorem addMags_of_gt (h : expOf fmt b < expOf fmt a) (s : Bool) (rm : RoundingMode) (tm : Tininess) :
    addMags fmt a b s rm tm =
      finishSum fmt s (expOf fmt a) (alignedFrac fmt (fmt.g - 1) a + shiftedFrac fmt (fmt.g - 1) b a) rm tm := by
  have hmax : max (expOf fmt a : Int) (expOf fmt b) = expOf fmt a := max_eq_left (by omega)
  simp only [addMags, if_neg h.ne', if_neg h.not_gt, hmax, finishSum, alignedFrac_of_ne (Nat.ne_zero_of_lt h),
    hidden_eq, shiftedFrac]

/-- The sum R181 makes on unequal exponents is a reading of the exact sum. -/
theorem reading_of_addMags_lt (h : expOf fmt a < expOf fmt b) :
    ∃ exp sig, Reading fmt exp sig (magOf ℚ fmt b + magOf ℚ fmt a) ∧ ∀ s rm tm,
      finishSum fmt s (expOf fmt b) (alignedFrac fmt (fmt.g - 1) b + shiftedFrac fmt (fmt.g - 1) a b) rm tm =
        roundPack fmt s exp sig rm tm := by
  have hwidth : fmt.p + (fmt.g - 1) ≤ fmt.k ∧ fmt.p + (fmt.g - 1) = fmt.k - 2 ∧ fmt.t + (fmt.g - 1) = fmt.k - 3 ∧
    fmt.g - 1 ≠ 0 ∧ 1 ≤ fmt.k - 2 := by cases fmt <;> decide
  obtain ⟨hpk, hp, ht, hg, hk⟩ := hwidth
  have htop : fmt.top = 2 * 2 ^ (fmt.k - 2) := by cases fmt <;> rfl
  have hlo := le_alignedFrac (Nat.ne_zero_of_lt h) (fmt.g - 1)
  have hhi := alignedFrac_lt (fmt.g - 1) b
  have hsmall := shiftedFrac_le hpk hk (a := a) (b := b) (by omega)
  rw [ht] at hlo
  rw [hp] at hhi
  exact reading_of_finishSum (Nat.one_le_of_lt h) (by omega) (by omega) (aligned_add_reads hpk h hg)

/-- R181 on equal exponents that are not 0: the sum carries, and nothing is shifted. -/
theorem reading_of_addMags_eq (h : expOf fmt a = expOf fmt b) (h0 : expOf fmt a ≠ 0) :
    Reading fmt (expOf fmt a) ((2 ^ fmt.p + fracOf fmt a + fracOf fmt b) <<< (fmt.g - 1))
      (magOf ℚ fmt a + magOf ℚ fmt b) := by
  have hg : 1 ≤ fmt.g := by cases fmt <;> decide
  have htop : fmt.top = 4 * 2 ^ fmt.t * 2 ^ (fmt.g - 1) := by cases fmt <;> rfl
  have hp : 2 ^ fmt.p = 2 * 2 ^ fmt.t := pow_succ' 2 fmt.t
  have hfa := fracOf_lt fmt a
  have hfb := fracOf_lt fmt b
  refine reading_of_eq ?_ ?_ ?_
  · have hunit : (expOf fmt a : Int) + fmt.emin - fmt.t - fmt.g = alignUnit fmt (expOf fmt a) (fmt.g - 1) := by
      simp only [alignUnit]
      omega
    rw [hunit, magOf_eq_alignedFrac (fmt.g - 1) a, magOf_eq_alignedFrac (fmt.g - 1) b, ← h, ← add_mul, ← Nat.cast_add,
      alignedFrac_of_ne h0, alignedFrac_of_ne (h ▸ h0), hp]
    congr 2
    simp only [Nat.shiftLeft_eq]
    ring
  · rw [htop, Nat.shiftLeft_eq, ← mul_assoc]
    exact Nat.mul_le_mul_right _ (by omega)
  · rw [htop, Nat.shiftLeft_eq]
    exact Nat.mul_lt_mul_of_pos_right (by omega) (Nat.two_pow_pos _)

/-- R181 on two exponents that are 0: the fraction adds to the pattern and may carry into its exponent field. -/
theorem addMags_of_zero (ha : expOf fmt a = 0) (hb : expOf fmt b = 0) (s : Bool) (rm : RoundingMode) (tm : Tininess) :
    addMags fmt a b s rm tm = (pack fmt (signOf fmt a) (0 : Nat) (fracOf fmt a + fracOf fmt b), noFlags) := by
  have hpack : a + BitVec.ofNat fmt.k (fracOf fmt b) =
      pack fmt (signOf fmt a) (0 : Nat) (fracOf fmt a + fracOf fmt b) := by
    conv_lhs => rw [← pack_fields fmt a]
    rw [pack, pack, ← BitVec.ofInt_natCast, ← BitVec.ofInt_add, ha]
    push_cast
    rw [add_assoc]
  simp only [addMags, ha, hb, if_true, hpack]

theorem magOf_of_expOf_eq_zero (ha : expOf fmt a = 0) : magOf ℚ fmt a = fracOf fmt a * 2 ^ (fmt.emin - fmt.t) := by
  simp [magOf, unpack, ha]

variable {neg : Bool} {rm : RoundingMode} {tm : Tininess}

theorem addSub_of_expOf_eq_zero (ha : expOf fmt a = 0) (hb : expOf fmt b = 0)
    (hs : signOf fmt a = (signOf fmt b ^^ neg)) :
    addSub fmt neg a b rm tm = (pack fmt (signOf fmt a) (0 : Nat) (fracOf fmt a + fracOf fmt b), noFlags) := by
  have hfa := fracOf_lt fmt a
  have hfb := fracOf_lt fmt b
  have hp : 2 ^ fmt.p = 2 ^ fmt.t * 2 := pow_succ 2 fmt.t
  have hmin : 3 ≤ fmt.expMax := by cases fmt <;> decide
  have hcarry : (fracOf fmt a + fracOf fmt b) / 2 ^ fmt.t < 2 := Nat.div_lt_of_lt_mul (by omega)
  obtain ⟨hfin, hsign, hmag⟩ := pack_value (K := ℚ) (s := signOf fmt a) (fmt := fmt) (e := 0)
    (n := fracOf fmt a + fracOf fmt b) (by omega) (.inl rfl) (by omega)
  have hsum : magOf ℚ fmt a + magOf ℚ fmt b =
      magOf ℚ fmt (pack fmt (signOf fmt a) (0 : Nat) (fracOf fmt a + fracOf fmt b)) := by
    rw [hmag, magOf_of_expOf_eq_zero ha, magOf_of_expOf_eq_zero hb, ← add_mul, Nat.cast_add, Nat.cast_zero, zero_add]
  have hafin : isFinite fmt a = true := by simp [isFinite, ha, expMax_pos]
  have hbfin : isFinite fmt b = true := by simp [isFinite, hb, expMax_pos]
  by_cases h0 : fracOf fmt a + fracOf fmt b = 0
  · obtain ⟨hfa0, hfb0⟩ := Nat.add_eq_zero_iff.mp h0
    rw [addSub_of_like_zeros rm tm (by simp [isZero, ha, hfa0]) (by simp [isZero, hb, hfb0]) hs, h0]
    rfl
  · refine addSub_of_magOf hafin hbfin hfin ?_ ?_
    · rw [hmag]
      have := Nat.pos_of_ne_zero h0
      positivity
    · rw [sumValue_of_like hs, hsum, hsign]

theorem addMags_eq_addSub (ha : isFinite fmt a = true) (hb : isFinite fmt b = true)
    (hs : signOf fmt a = (signOf fmt b ^^ neg)) :
    addMags fmt a b (signOf fmt a) rm tm = addSub fmt neg a b rm tm := by
  have hsum := sumValue_of_like hs
  obtain h | h | h := lt_trichotomy (expOf fmt a) (expOf fmt b)
  · obtain ⟨exp, sig, hread, hres⟩ := reading_of_addMags_lt h
    rw [addMags_of_lt h, hres, addSub_of_reading ha hb hread (by rw [hsum, add_comm])]
  · by_cases h0 : expOf fmt a = 0
    · have h0' : expOf fmt b = 0 := h ▸ h0
      rw [addMags_of_zero h0 h0', addSub_of_expOf_eq_zero h0 h0' hs]
    · rw [addSub_of_reading ha hb (reading_of_addMags_eq h h0) hsum]
      simp only [addMags, if_pos h, if_neg h0]
  · obtain ⟨exp, sig, hread, hres⟩ := reading_of_addMags_lt h
    rw [addMags_of_gt h, hres, addSub_of_reading ha hb hread hsum]

end AddMags

/-! ## Unlike effective signs (R182) -/

section SubMags
variable {fmt : Fmt} {a b : Pat fmt}

theorem or_hidden_eq (he : expOf fmt a ≠ 0) : fracOf fmt a <<< fmt.g ||| 2 ^ (fmt.k - 2) = alignedFrac fmt fmt.g a := by
  have hk : fmt.t + fmt.g = fmt.k - 2 := by cases fmt <;> rfl
  have hlt : fracOf fmt a <<< fmt.g < 2 ^ (fmt.k - 2) := by
    rw [Nat.shiftLeft_eq, ← hk, Nat.pow_add]
    exact Nat.mul_lt_mul_of_pos_right (fracOf_lt fmt a) (Nat.two_pow_pos _)
  have hor := Nat.two_pow_add_eq_or_of_lt hlt 1
  rw [mul_one] at hor
  rw [alignedFrac_of_ne he, Nat.shiftLeft_eq (2 ^ fmt.t), ← Nat.pow_add, hk, hor, Nat.or_comm]

/-- R182 on unequal exponents, the smaller one shifted and taken from the larger one. -/
theorem subMags_of_lt (h : expOf fmt a < expOf fmt b) (s : Bool) (rm : RoundingMode) (tm : Tininess) :
    subMags fmt a b s rm tm =
      normRoundPack fmt (!s) ((expOf fmt b : Int) - 1) (alignedFrac fmt fmt.g b - shiftedFrac fmt fmt.g a b) rm tm := by
  simp only [subMags, if_neg h.ne, if_pos h, or_hidden_eq (Nat.ne_zero_of_lt h), shiftedFrac]

theorem subMags_of_gt (h : expOf fmt b < expOf fmt a) (s : Bool) (rm : RoundingMode) (tm : Tininess) :
    subMags fmt a b s rm tm =
      normRoundPack fmt s ((expOf fmt a : Int) - 1) (alignedFrac fmt fmt.g a - shiftedFrac fmt fmt.g b a) rm tm := by
  simp only [subMags, if_neg h.ne', if_neg h.not_gt, or_hidden_eq (Nat.ne_zero_of_lt h), shiftedFrac]

/-- One place of distance loses no bit: the significand has an even unit below it. -/
theorem shiftedFrac_exact_of_succ {pre : Nat} (hpre : fmt.p + pre ≤ fmt.k) (hpre0 : pre ≠ 0)
    (h : expOf fmt b = expOf fmt a + 1) :
    magOf ℚ fmt a / 2 ^ alignUnit fmt (expOf fmt b) pre = shiftedFrac fmt pre a b := by
  have hd : expOf fmt b - expOf fmt a = 1 := by omega
  have hexact : alignedFrac fmt pre a = 2 ^ 1 * shiftedFrac fmt pre a b := by
    rw [shiftedFrac, hd]
    exact (shiftRightJam_cases 1 (alignedFrac_lt_two_pow_k hpre a)).resolve_right
      fun hlost => hlost.1 (two_dvd_alignedFrac hpre0 a)
  rw [magOf_div_unit (by omega), hd, hexact]
  push_cast
  ring

/-- Normalising keeps a reading when no bit was lost, or when the leading 1 is one place down at most. -/
theorem reading_of_normalised {e : Int} {n : Nat} {x : ℚ} (h0 : 0 < n) (hn : n < fmt.top)
    (h : x / 2 ^ (e + fmt.emin - fmt.t - fmt.g) = n ∨
      ComparesLike 2 n (x / 2 ^ (e + fmt.emin - fmt.t - fmt.g)) ∧ 2 ^ (fmt.k - 3) ≤ n ∧ 1 ≤ e) :
    Reading fmt (e - clz (fmt.k - 1) n) (n <<< clz (fmt.k - 1) n) x := by
  have htop : fmt.top = 2 * 2 ^ (fmt.k - 1 - 1) := by cases fmt <;> rfl
  obtain ⟨hlo, hhi⟩ := shiftLeft_clz_bounds h0 (bitlen_le_of_lt hn)
  have hlo' := htop ▸ Nat.mul_le_mul_left 2 hlo
  obtain hexact | ⟨hreads, hlead, he⟩ := h
  · refine reading_of_eq ?_ hlo' hhi
    have hexp : e + fmt.emin - fmt.t - fmt.g =
        clz (fmt.k - 1) n + (e - clz (fmt.k - 1) n + fmt.emin - fmt.t - fmt.g) := by ring
    rw [div_eq_iff (by positivity), hexp, zpow_add₀ two_ne_zero, zpow_natCast] at hexact
    rw [hexact, Nat.shiftLeft_eq]
    push_cast
    ring
  · have hlen : fmt.k - 3 < bitlen n := by
      rw [← Nat.pow_lt_pow_iff_right Nat.one_lt_two]
      exact hlead.trans_lt (lt_two_pow_bitlen n)
    have hc : clz (fmt.k - 1) n ≤ 1 := by
      simp only [clz]
      omega
    exact reading_of_jam hreads hc (by omega) hlo' hhi

/-- The difference R182 makes on unequal exponents is a reading of the exact difference. Only a distance of two places
or more loses bits, and then the difference has one leading zero at most. -/
theorem reading_of_subMags_lt (h : expOf fmt a < expOf fmt b) :
    ∃ exp sig, Reading fmt exp sig (magOf ℚ fmt b - magOf ℚ fmt a) ∧ ∀ s rm tm,
      normRoundPack fmt s ((expOf fmt b : Int) - 1) (alignedFrac fmt fmt.g b - shiftedFrac fmt fmt.g a b) rm tm =
        roundPack fmt s exp sig rm tm := by
  have hwidth : fmt.p + fmt.g ≤ fmt.k ∧ fmt.p + fmt.g = fmt.k - 1 ∧ fmt.t + fmt.g = fmt.k - 2 ∧ fmt.g ≠ 0 ∧
    4 ≤ fmt.k := by cases fmt <;> decide
  obtain ⟨hpk, hp, ht, hg, hk⟩ := hwidth
  have hlt := shiftedFrac_lt hpk h hg
  have hdiff : 0 < alignedFrac fmt fmt.g b - shiftedFrac fmt fmt.g a b := Nat.sub_pos_of_lt hlt
  have hhi : alignedFrac fmt fmt.g b - shiftedFrac fmt fmt.g a b < fmt.top :=
    (Nat.sub_le ..).trans_lt ((alignedFrac_lt fmt.g b).trans_eq (congrArg _ hp))
  have hunit : alignUnit fmt (expOf fmt b) fmt.g = (expOf fmt b : Int) - 1 + fmt.emin - fmt.t - fmt.g := by
    simp only [alignUnit]
    omega
  refine ⟨_, _, reading_of_normalised hdiff hhi ?_, fun s rm tm => normRoundPack_eq_roundPack hdiff⟩
  rw [← hunit]
  obtain hd | hd : expOf fmt b = expOf fmt a + 1 ∨ expOf fmt a + 2 ≤ expOf fmt b := by omega
  · left
    rw [sub_div, magOf_div_own_unit, shiftedFrac_exact_of_succ hpk hg hd, Nat.cast_sub hlt.le]
  · have hlo := le_alignedFrac (Nat.ne_zero_of_lt h) fmt.g
    have hsmall := shiftedFrac_le hpk (a := a) (b := b) (i := fmt.k - 3) (by omega) (by omega)
    have hsplit : 2 ^ (fmt.t + fmt.g) = 2 * 2 ^ (fmt.k - 3) := by rw [← pow_succ']; congr 1; omega
    exact .inr ⟨aligned_sub_reads hpk h hg hlt.le, by omega, by omega⟩

/-- R182's result on equal exponents: the difference moved up to its hidden bit, or as far as the exponent allows. -/
theorem pack_normalised_value {e n : Nat} (s : Bool) (h0 : 0 < n) (hn : n < 2 ^ fmt.p) (he : e + 1 < fmt.expMax) :
    let z := pack fmt s (e - min e (clz fmt.p n) : Nat) (n <<< min e (clz fmt.p n))
    isFinite fmt z = true ∧ signOf fmt z = s ∧ magOf ℚ fmt z = n * 2 ^ (e + fmt.emin - fmt.t) := by
  obtain ⟨hlo, hhi⟩ := shiftLeft_clz_bounds h0 (bitlen_le_of_lt hn)
  have hp : 2 ^ fmt.p = 2 ^ fmt.t * 2 := pow_succ 2 fmt.t
  have hlt : n <<< min e (clz fmt.p n) < 2 ^ fmt.p := by
    refine hhi.trans_le' ?_
    rw [Nat.shiftLeft_eq, Nat.shiftLeft_eq]
    exact Nat.mul_le_mul_left n (Nat.pow_le_pow_right Nat.two_pos (Nat.min_le_right ..))
  have hcarry := Nat.div_lt_of_lt_mul (hp ▸ hlt)
  have hnorm : e - min e (clz fmt.p n) = 0 ∨ 2 ^ fmt.t ≤ n <<< min e (clz fmt.p n) := by
    obtain hle | hle := le_total e (clz fmt.p n)
    · rw [min_eq_left hle]
      exact .inl (Nat.sub_self e)
    · rw [min_eq_right hle]
      exact .inr hlo
  obtain ⟨hfin, hsign, hmag⟩ := pack_value (K := ℚ) (s := s) hlt.le hnorm (by omega)
  refine ⟨hfin, hsign, hmag.trans ?_⟩
  have hexp : (e : Int) + fmt.emin - fmt.t =
      (min e (clz fmt.p n) : Nat) + ((e - min e (clz fmt.p n) : Nat) + fmt.emin - fmt.t) := by omega
  rw [hexp, zpow_add₀ two_ne_zero, zpow_natCast, Nat.shiftLeft_eq]
  push_cast
  ring

theorem subMags_of_eq (h : expOf fmt a = expOf fmt b) {d : Int} (hd : (fracOf fmt a : Int) - fracOf fmt b = d)
    (s : Bool) (rm : RoundingMode) (tm : Tininess) :
    subMags fmt a b s rm tm =
      if d = 0 then (zeroPat fmt (cancelSign rm), noFlags)
      else
        (pack fmt (s ^^ decide (d < 0))
          (expOf fmt a - 1 - min (expOf fmt a - 1) (clz fmt.p d.natAbs) : Nat)
          (d.natAbs <<< min (expOf fmt a - 1) (clz fmt.p d.natAbs)), noFlags) := by
  have hkp : fmt.p ≤ fmt.k := by cases fmt <;> decide
  have hclz : clz fmt.k d.natAbs - (fmt.k - fmt.p) = clz fmt.p d.natAbs := by simp only [clz]; omega
  have hmin : (if expOf fmt a - 1 < clz fmt.p d.natAbs then expOf fmt a - 1 else clz fmt.p d.natAbs) =
      min (expOf fmt a - 1) (clz fmt.p d.natAbs) := by
    rw [Nat.min_def]
    split_ifs <;> omega
  simp only [subMags, if_pos h, hd, hclz, hmin]

/-- On equal exponents the hidden bits cancel. -/
theorem magOf_sub_of_expOf_eq (h : expOf fmt a = expOf fmt b) :
    magOf ℚ fmt a - magOf ℚ fmt b =
      ((fracOf fmt a : Int) - fracOf fmt b : Int) * 2 ^ ((expOf fmt a - 1 : Nat) + fmt.emin - fmt.t) := by
  rw [magOf, magOf, unpack_q_eq, unpack_q_eq, ← h, ← sub_mul]
  congr 1
  by_cases h0 : expOf fmt a = 0
  · simp [unpack, h0, ← h]
  · simp [unpack, h0, ← h]

variable {neg : Bool} {rm : RoundingMode} {tm : Tininess}

theorem subMags_eq_addSub_of_expOf_eq (ha : isFinite fmt a = true) (hb : isFinite fmt b = true)
    (hs : signOf fmt a ≠ (signOf fmt b ^^ neg)) (h : expOf fmt a = expOf fmt b) :
    subMags fmt a b (signOf fmt a) rm tm = addSub fmt neg a b rm tm := by
  have hsum := sumValue_of_unlike hs
  rw [magOf_sub_of_expOf_eq h] at hsum
  obtain ⟨d, hd⟩ : ∃ d : Int, (fracOf fmt a : Int) - fracOf fmt b = d := ⟨_, rfl⟩
  rw [subMags_of_eq h hd]
  rw [hd, withSign_intCast_mul] at hsum
  have hfa := fracOf_lt fmt a
  have hfb := fracOf_lt fmt b
  have he : expOf fmt a < fmt.expMax := by simpa [isFinite] using ha
  have hmin : 3 ≤ fmt.expMax := by cases fmt <;> decide
  have hp : 2 ^ fmt.p = 2 ^ fmt.t * 2 := pow_succ 2 fmt.t
  split_ifs with h0
  · rw [addSub_of_sumValue_eq_zero rm tm ha hb (by simp [hsum, h0, withSign]), if_neg fun hz => hs hz.2.2,
      cancelSign_eq_zeroSign]
  · obtain ⟨hfin, hsign, hmag⟩ := pack_normalised_value (fmt := fmt) (e := expOf fmt a - 1) (n := d.natAbs)
      (signOf fmt a ^^ decide (d < 0)) (by omega) (by omega) (by omega)
    refine (addSub_of_magOf ha hb hfin ?_ ?_).symm
    · rw [hmag]
      have := Int.natAbs_pos.mpr h0
      positivity
    · rw [hmag, hsign, hsum]

theorem subMags_eq_addSub (ha : isFinite fmt a = true) (hb : isFinite fmt b = true)
    (hs : signOf fmt a ≠ (signOf fmt b ^^ neg)) :
    subMags fmt a b (signOf fmt a) rm tm = addSub fmt neg a b rm tm := by
  have hsum := sumValue_of_unlike hs
  obtain h | h | h := lt_trichotomy (expOf fmt a) (expOf fmt b)
  · obtain ⟨exp, sig, hread, hres⟩ := reading_of_subMags_lt h
    rw [subMags_of_lt h, hres, addSub_of_reading ha hb hread (by rw [hsum, ← withSign_neg, neg_sub])]
  · exact subMags_eq_addSub_of_expOf_eq ha hb hs h
  · obtain ⟨exp, sig, hread, hres⟩ := reading_of_subMags_lt h
    rw [subMags_of_gt h, hres, addSub_of_reading ha hb hread hsum]

end SubMags

/-- Settles O56: like effective signs take R181's path and unlike ones R182's. -/
theorem addSubDatapathAgrees : Obligations.AddSubDatapathAgrees := by
  intro fmt neg a b rm tm ha hb
  rw [addSubDatapath]
  split_ifs with hs
  · exact addMags_eq_addSub ha hb hs
  · exact subMags_eq_addSub ha hb hs

end Sys2Proof.Machine
end

section
/-! What rounding an exact value means for a kernel (43_rounding_engine.md R136, R137): the kernel hands the engine the
sign and the magnitude of the value, whatever significand and exponent it writes them in, so two kernels that round one
value return one result. -/

namespace Sys2Proof.Machine

section EngineRounds
variable {fmt : Fmt} {x : ℚ} {f g : RoundingMode → Tininess → FloatResult fmt}

/-- In every mode `f` is the engine's result on the sign and the magnitude of the nonzero number `x`. -/
def EngineRounds (fmt : Fmt) (x : ℚ) (f : RoundingMode → Tininess → FloatResult fmt) : Prop :=
  ∃ exp sig, EngineInput fmt exp sig |x| ∧ ∀ rm tm, f rm tm = roundPack fmt (decide (x < 0)) exp sig rm tm

namespace EngineRounds

theorem correctlyRounded (h : EngineRounds fmt x f) (rm : RoundingMode) (tm : Tininess) :
    CorrectlyRounded fmt (decide (x < 0)) |x| rm tm (f rm tm) := by
  obtain ⟨exp, sig, hin, hres⟩ := h
  exact hres rm tm ▸ hin.correctlyRounded_roundPack _ rm tm

theorem unique (h : EngineRounds fmt x f) (h' : EngineRounds fmt x g) (rm : RoundingMode) (tm : Tininess) :
    f rm tm = g rm tm := by
  obtain ⟨exp, sig, hin, hres⟩ := h
  obtain ⟨exp', sig', hin', hres'⟩ := h'
  rw [hres, hres', hin.reading.roundPack_eq hin'.reading]

/-- A sign and a positive magnitude that the engine is handed. -/
theorem of_engineInput {s : Bool} {y : ℚ} {exp : Int} {sig : Nat} (hin : EngineInput fmt exp sig y)
    (hf : ∀ rm tm, f rm tm = roundPack fmt s exp sig rm tm) : EngineRounds fmt (withSign s y) f := by
  refine ⟨exp, sig, (abs_withSign s hin.pos).symm ▸ hin, fun rm tm => ?_⟩
  simp only [hf, withSign_neg_iff s hin.pos, Bool.decide_eq_true]

end EngineRounds

theorem bridge_engineInput_exact {m : Nat} (h0 : 0 < m) (e : Int) :
    EngineInput fmt (bridgeExp fmt m e) (bridgeSig fmt m false) ((m : ℚ) * 2 ^ e) :=
  bridge_engineInput (sticky := false) h0 rfl

theorem engineRounds_roundExact (s : Bool) {m : Nat} (h0 : 0 < m) (e : Int) :
    EngineRounds fmt (withSign s (m * 2 ^ e)) (roundExact fmt s m false e) :=
  .of_engineInput (bridge_engineInput_exact h0 e) fun _ _ => roundExact_eq_roundPack_bridge ..

/-- A nonzero integer in units of `2 ^ e`. -/
theorem engineRounds_roundExact_int {v : Int} (h0 : v ≠ 0) (e : Int) :
    EngineRounds fmt (v * 2 ^ e) (roundExact fmt (decide (v < 0)) v.natAbs false e) := by
  have hsign : (v : ℚ) * 2 ^ e = withSign (decide (v < 0)) (v.natAbs * 2 ^ e) := by
    rw [← Bool.false_xor (decide (v < 0)), ← withSign_intCast_mul]
    rfl
  exact hsign ▸ engineRounds_roundExact _ (Int.natAbs_pos.mpr h0) e

variable {a b : Pat fmt}

theorem unpack_m_pos (hz : isZero fmt a = false) : 0 < (unpack fmt a).m :=
  unpack_m_pos_of_magOf ((magOf_pos_iff a).mpr hz)

/-- A kernel that hands on a finite nonzero pattern rounds its value. -/
theorem engineRounds_pattern (ha : isFinite fmt a = true) (hz : isZero fmt a = false) :
    EngineRounds fmt (valueOf ℚ fmt a) fun _ _ => (a, noFlags) := by
  have hin := bridge_engineInput_exact (fmt := fmt) (unpack_m_pos hz) (unpack fmt a).q
  exact .of_engineInput (s := signOf fmt a) hin fun rm tm => (roundPack_of_magOf ha hin rm tm).symm

theorem engineRounds_addSub {neg : Bool} (ha : isFinite fmt a = true) (hb : isFinite fmt b = true)
    (h : sumValue fmt neg a b ≠ 0) : EngineRounds fmt (sumValue fmt neg a b) (addSub fmt neg a b) :=
  addSub_eq_roundPack ha hb h

end EngineRounds

end Sys2Proof.Machine
end

section
/-! Multiplication of finite operands (46_mul_fma.md R190): the product of the significands, in units of the sum of the
exponents, is the exact product. -/

namespace Sys2Proof.Machine

theorem withSign_mul_withSign (s t : Bool) (x y : ℚ) : withSign s x * withSign t y = withSign (s ^^ t) (x * y) := by
  cases s <;> cases t <;> simp [withSign]

section Mul
variable {fmt : Fmt} {a b : Pat fmt}

theorem valueOf_eq_zero_iff (a : Pat fmt) : valueOf ℚ fmt a = 0 ↔ isZero fmt a = true :=
  (withSign_eq_zero_iff (signOf fmt a)).trans (magOf_eq_zero_iff a)

theorem mul_valueOf_eq_withSign (a b : Pat fmt) :
    valueOf ℚ fmt a * valueOf ℚ fmt b = withSign (signOf fmt a ^^ signOf fmt b) (magOf ℚ fmt a * magOf ℚ fmt b) :=
  withSign_mul_withSign ..

theorem magOf_mul_magOf (a b : Pat fmt) :
    magOf ℚ fmt a * magOf ℚ fmt b =
      ((unpack fmt a).m * (unpack fmt b).m : Nat) * 2 ^ ((unpack fmt a).q + (unpack fmt b).q) := by
  rw [magOf, magOf, zpow_add₀ two_ne_zero, Nat.cast_mul, mul_mul_mul_comm]

/-- A zero is its sign. -/
theorem eq_zeroPat_of_isZero (h : isZero fmt a = true) : a = zeroPat fmt (signOf fmt a) := by
  simp only [isZero, Bool.and_eq_true, beq_iff_eq] at h
  obtain ⟨he, hf⟩ := h
  have hpack := pack_fields fmt a
  rw [he, hf] at hpack
  exact hpack.symm

theorem mul_of_isZero (ha : isFinite fmt a = true) (hb : isFinite fmt b = true)
    (hz : isZero fmt a = true ∨ isZero fmt b = true) (rm : RoundingMode) (tm : Tininess) :
    mul fmt a b rm tm = (zeroPat fmt (signOf fmt a ^^ signOf fmt b), noFlags) := by
  simp [mul, isFinite_excludes ha, isFinite_excludes hb, hz]

theorem mul_of_finite (ha : isFinite fmt a = true) (hb : isFinite fmt b = true) (hza : isZero fmt a = false)
    (hzb : isZero fmt b = false) :
    mul fmt a b = roundExact fmt (signOf fmt a ^^ signOf fmt b) ((unpack fmt a).m * (unpack fmt b).m) false
      ((unpack fmt a).q + (unpack fmt b).q) := by
  funext rm tm
  simp [mul, isFinite_excludes ha, isFinite_excludes hb, hza, hzb]

theorem engineRounds_mul (ha : isFinite fmt a = true) (hb : isFinite fmt b = true) (hza : isZero fmt a = false)
    (hzb : isZero fmt b = false) : EngineRounds fmt (valueOf ℚ fmt a * valueOf ℚ fmt b) (mul fmt a b) := by
  rw [mul_valueOf_eq_withSign, magOf_mul_magOf, mul_of_finite ha hb hza hzb]
  exact engineRounds_roundExact _ (Nat.mul_pos (unpack_m_pos hza) (unpack_m_pos hzb)) _

end Mul

/-- Settles O36: a zero factor makes a zero, and other products go to the engine exact. -/
theorem mulOfFinite : Obligations.MulOfFinite := by
  intro fmt rm exact ops s a b sp ha hb
  refine ⟨fun hz => answers_of_exec (exec_mulInstr ..) (mul_of_isZero ha hb hz rm s.tininess), fun ⟨hza, hzb⟩ => ?_⟩
  rw [Bool.not_eq_true] at hza hzb
  have hpos := mul_pos ((magOf_pos_iff a).mpr hza) ((magOf_pos_iff b).mpr hzb)
  have hround := (engineRounds_mul ha hb hza hzb).correctlyRounded rm s.tininess
  rw [mul_valueOf_eq_withSign, abs_withSign _ hpos] at hround
  simp only [withSign_neg_iff _ hpos, Bool.decide_eq_true] at hround
  exact ⟨_, hround, answers_of_exec (exec_mulInstr ..) rfl⟩

end Sys2Proof.Machine
end

section
/-! The fused multiply-add of finite operands (46_mul_fma.md R195): the kernel's aligned integer sum is `a*b + c` in
units of the smaller exponent, so the engine rounds the exact number once. -/

namespace Sys2Proof.Machine

/-- Writing a magnitude with a smaller exponent keeps the value. -/
theorem cast_signed_shifted (s : Bool) (m : Nat) {q q' : Int} (hq : q ≤ q') :
    (signed s (m * 2 ^ (q' - q).toNat) : ℚ) * 2 ^ q = withSign s (m * 2 ^ q') := by
  have hexp : q' = (q' - q).toNat + q := by omega
  conv_rhs => rw [hexp, zpow_add₀ two_ne_zero, zpow_natCast]
  cases s <;> simp [signed, withSign, mul_assoc]

section MulAdd
variable {fmt : Fmt} {a b c : Pat fmt} (cfg : Config)

/-- The exact `a*b + c`. -/
def mulAddValue (fmt : Fmt) (a b c : Pat fmt) : ℚ := valueOf ℚ fmt a * valueOf ℚ fmt b + valueOf ℚ fmt c

/-- The exponent of the product of two significands. -/
def productExp (fmt : Fmt) (a b : Pat fmt) : Int := (unpack fmt a).q + (unpack fmt b).q

/-- The exponent R195 takes the addend at: a zero does not move the product. -/
def addendExp (fmt : Fmt) (a b c : Pat fmt) : Int := if isZero fmt c then productExp fmt a b else (unpack fmt c).q

/-- The exponent R195 aligns the product and the addend to. -/
def mulAddExp (fmt : Fmt) (a b c : Pat fmt) : Int := min (productExp fmt a b) (addendExp fmt a b c)

/-- R195's sum of the aligned product and addend. -/
def mulAddSum (fmt : Fmt) (a b c : Pat fmt) : Int :=
  signed (signOf fmt a ^^ signOf fmt b)
      (((unpack fmt a).m * (unpack fmt b).m : Nat) * 2 ^ (productExp fmt a b - mulAddExp fmt a b c).toNat) +
    signed (signOf fmt c) ((unpack fmt c).m * 2 ^ (addendExp fmt a b c - mulAddExp fmt a b c).toNat)

theorem magOf_eq_addend (a b c : Pat fmt) : magOf ℚ fmt c = (unpack fmt c).m * 2 ^ addendExp fmt a b c := by
  rw [magOf, addendExp]
  split_ifs with hz
  · rw [(unpack_m_eq_zero fmt c).mpr hz, Nat.cast_zero, zero_mul, zero_mul]
  · rfl

theorem mulAddValue_eq_mulAddSum (a b c : Pat fmt) :
    mulAddValue fmt a b c = mulAddSum fmt a b c * 2 ^ mulAddExp fmt a b c := by
  have hprod := cast_signed_shifted (signOf fmt a ^^ signOf fmt b) ((unpack fmt a).m * (unpack fmt b).m)
    (show mulAddExp fmt a b c ≤ productExp fmt a b from min_le_left ..)
  have haddend := cast_signed_shifted (signOf fmt c) (unpack fmt c).m
    (show mulAddExp fmt a b c ≤ addendExp fmt a b c from min_le_right ..)
  rw [productExp, ← magOf_mul_magOf, ← mul_valueOf_eq_withSign] at hprod
  rw [← magOf_eq_addend] at haddend
  rw [mulAddSum, Int.cast_add, add_mul, productExp, hprod, haddend]
  rfl

theorem mulAddValue_eq_zero_iff (a b c : Pat fmt) : mulAddValue fmt a b c = 0 ↔ mulAddSum fmt a b c = 0 := by
  rw [mulAddValue_eq_mulAddSum, mul_eq_zero_iff_right (by positivity), Int.cast_eq_zero]

/-- A zero product adds nothing. -/
theorem mulAddValue_of_isZero (c : Pat fmt) (hz : isZero fmt a = true ∨ isZero fmt b = true) :
    mulAddValue fmt a b c = valueOf ℚ fmt c := by
  rw [← valueOf_eq_zero_iff, ← valueOf_eq_zero_iff, ← mul_eq_zero] at hz
  rw [mulAddValue, hz, zero_add]

section Finite
variable (ha : isFinite fmt a = true) (hb : isFinite fmt b = true) (hc : isFinite fmt c = true)
include ha hb hc

theorem mulAdd_of_isZero (hz : isZero fmt a = true ∨ isZero fmt b = true) (rm : RoundingMode) (tm : Tininess) :
    mulAdd cfg fmt a b c rm tm =
      if isZero fmt c && signOf fmt c != (signOf fmt a ^^ signOf fmt b) then (zeroPat fmt (cancelSign rm), noFlags)
      else (c, noFlags) := by
  simp [mulAdd, zeroTimesInf, isFinite_excludes ha, isFinite_excludes hb, isFinite_excludes hc, hz]

theorem mulAdd_of_finite (hza : isZero fmt a = false) (hzb : isZero fmt b = false) (rm : RoundingMode)
    (tm : Tininess) :
    mulAdd cfg fmt a b c rm tm =
      if mulAddSum fmt a b c = 0 then (zeroPat fmt (cancelSign rm), noFlags)
      else roundExact fmt (decide (mulAddSum fmt a b c < 0)) (mulAddSum fmt a b c).natAbs false
        (mulAddExp fmt a b c) rm tm := by
  have hmc : (if isZero fmt c = true then 0 else (unpack fmt c).m) = (unpack fmt c).m := by
    split_ifs with hz
    · exact ((unpack_m_eq_zero fmt c).mpr hz).symm
    · rfl
  simp only [mulAdd, zeroTimesInf, isFinite_excludes ha, isFinite_excludes hb, isFinite_excludes hc, hza, hzb, hmc,
    Bool.or_self, Bool.and_false, Bool.false_eq_true, if_false]
  rfl

theorem engineRounds_mulAdd (h : mulAddValue fmt a b c ≠ 0) :
    EngineRounds fmt (mulAddValue fmt a b c) (mulAdd cfg fmt a b c) := by
  by_cases hz : isZero fmt a = true ∨ isZero fmt b = true
  · rw [mulAddValue_of_isZero c hz] at h ⊢
    have hzc : isZero fmt c = false := by rwa [Ne, valueOf_eq_zero_iff, Bool.not_eq_true] at h
    have hkernel : mulAdd cfg fmt a b c = fun _ _ => (c, noFlags) := by
      funext rm tm
      rw [mulAdd_of_isZero cfg ha hb hc hz, hzc, Bool.false_and, if_neg Bool.false_ne_true]
    exact hkernel ▸ engineRounds_pattern hc hzc
  · obtain ⟨hza, hzb⟩ : isZero fmt a = false ∧ isZero fmt b = false := by simpa using hz
    have hsum := mt (mulAddValue_eq_zero_iff a b c).mpr h
    have hkernel : mulAdd cfg fmt a b c =
        roundExact fmt (decide (mulAddSum fmt a b c < 0)) (mulAddSum fmt a b c).natAbs false (mulAddExp fmt a b c) := by
      funext rm tm
      rw [mulAdd_of_finite cfg ha hb hc hza hzb, if_neg hsum]
    rw [mulAddValue_eq_mulAddSum, hkernel]
    exact engineRounds_roundExact_int hsum _

/-- R195: the sign of an `a*b + c` that is exactly 0. -/
theorem mulAdd_of_mulAddValue_eq_zero (h : mulAddValue fmt a b c = 0) (rm : RoundingMode) (tm : Tininess) :
    mulAdd cfg fmt a b c rm tm =
      (zeroPat fmt (if (isZero fmt a ∨ isZero fmt b) ∧ signOf fmt c = (signOf fmt a ^^ signOf fmt b) then
        signOf fmt a ^^ signOf fmt b else zeroSign rm), noFlags) := by
  by_cases hz : isZero fmt a = true ∨ isZero fmt b = true
  · rw [mulAddValue_of_isZero c hz, valueOf_eq_zero_iff] at h
    rw [mulAdd_of_isZero cfg ha hb hc hz, h, Bool.true_and]
    by_cases hs : signOf fmt c = (signOf fmt a ^^ signOf fmt b)
    · rw [if_neg (by simp [hs]), if_pos ⟨hz, hs⟩, ← hs, ← eq_zeroPat_of_isZero h]
    · rw [if_pos (by simp [hs]), if_neg fun hand => hs hand.2, cancelSign_eq_zeroSign]
  · obtain ⟨hza, hzb⟩ : isZero fmt a = false ∧ isZero fmt b = false := by simpa using hz
    rw [mulAdd_of_finite cfg ha hb hc hza hzb, if_pos ((mulAddValue_eq_zero_iff a b c).mp h),
      if_neg fun hand => hz hand.1, cancelSign_eq_zeroSign]

end Finite
end MulAdd

/-- Settles O37: the aligned sum is the exact `a*b + c`, and with a zero product it is the addend. -/
theorem mulAddOfFinite : Obligations.MulAddOfFinite := by
  intro fmt rm exact ops s a b c sp x ha hb hc
  refine ⟨fun hx => ?_, fun hx => ?_⟩
  · exact ⟨_, (engineRounds_mulAdd config ha hb hc hx).correctlyRounded rm s.tininess,
      answers_of_exec (exec_mulAddInstr ..) rfl⟩
  · exact answers_of_exec (exec_mulAddInstr ..) (mulAdd_of_mulAddValue_eq_zero config ha hb hc hx rm s.tininess)

end Sys2Proof.Machine
end

section
/-! The laws of multiplication and of the fused multiply-add (46_mul_fma.md R200). The kernels read their factors
symmetrically, and their results on finite operands are functions of the exact value, so two requests with one value
have one outcome. -/

namespace Sys2Proof.Machine

section Symmetry
variable {fmt : Fmt} (a b : Pat fmt)

theorem nanResult_swap (ops : List (Pat fmt)) : nanResult fmt (a :: b :: ops) = nanResult fmt (b :: a :: ops) := by
  simp only [nanResult, List.any_cons, Bool.or_left_comm]

theorem zeroTimesInf_comm : zeroTimesInf fmt a b = zeroTimesInf fmt b a := by
  simp only [zeroTimesInf, Bool.and_comm, Bool.or_comm]

/-- R200 (a). -/
theorem mul_comm_factors : mul fmt a b = mul fmt b a := by
  funext rm tm
  simp only [mul, nanResult_swap a b, Bool.xor_comm (signOf fmt a), Bool.or_comm (isNaN fmt a),
    Bool.or_comm (isInf fmt a), Bool.or_comm (isZero fmt a), Nat.mul_comm (unpack fmt a).m,
    add_comm (unpack fmt a).q]

theorem mulAdd_comm_factors (cfg : Config) (c : Pat fmt) : mulAdd cfg fmt a b c = mulAdd cfg fmt b a c := by
  funext rm tm
  simp only [mulAdd, nanResult_swap a b, zeroTimesInf_comm a b, Bool.xor_comm (signOf fmt a),
    Bool.or_comm (isNaN fmt a), Bool.or_comm (isInf fmt a), Bool.or_comm (isZero fmt a),
    mul_comm ((unpack fmt a).m : Int), add_comm (unpack fmt a).q]

end Symmetry

section ZeroAddend
variable {fmt : Fmt} {a b c : Pat fmt} (cfg : Config) (rm : RoundingMode) (tm : Tininess)

/-- R200 (b): a zero addend does not change a product that is not 0. -/
theorem mulAdd_zero_addend (ha : isFinite fmt a = true) (hb : isFinite fmt b = true) (hza : isZero fmt a = false)
    (hzb : isZero fmt b = false) (hc : isZero fmt c = true) : mulAdd cfg fmt a b c rm tm = mul fmt a b rm tm := by
  have hvalue : mulAddValue fmt a b c = valueOf ℚ fmt a * valueOf ℚ fmt b := by
    rw [mulAddValue, (valueOf_eq_zero_iff c).mpr hc, add_zero]
  have hne : valueOf ℚ fmt a * valueOf ℚ fmt b ≠ 0 := by
    rw [mul_ne_zero_iff, Ne, Ne, valueOf_eq_zero_iff, valueOf_eq_zero_iff, hza, hzb]
    decide
  have hround := engineRounds_mulAdd cfg ha hb (isFinite_of_isZero hc) (hvalue ▸ hne)
  exact (hvalue ▸ hround).unique (engineRounds_mul ha hb hza hzb) rm tm

end ZeroAddend

section One
variable {fmt : Fmt}

/-- The pattern of 1.0. -/
def onePat (fmt : Fmt) : Pat fmt := pack fmt false fmt.bias 0

theorem onePat_fields (fmt : Fmt) :
    signOf fmt (onePat fmt) = false ∧ expOf fmt (onePat fmt) = fmt.bias ∧ fracOf fmt (onePat fmt) = 0 :=
  fields_pack (by cases fmt <;> decide) (Nat.two_pow_pos _)

theorem bias_bounds (fmt : Fmt) : 0 < fmt.bias ∧ fmt.bias < fmt.expMax := by cases fmt <;> decide

theorem isFinite_onePat (fmt : Fmt) : isFinite fmt (onePat fmt) = true := by
  simp [isFinite, onePat_fields, bias_bounds]

theorem isZero_onePat (fmt : Fmt) : isZero fmt (onePat fmt) = false := by
  simp [isZero, onePat_fields, (bias_bounds fmt).1.ne']

theorem valueOf_onePat (fmt : Fmt) : valueOf ℚ fmt (onePat fmt) = 1 := by
  simp [valueOf, magOf, unpack, onePat_fields, (bias_bounds fmt).1.ne']

variable {a c : Pat fmt} (cfg : Config) (rm : RoundingMode) (tm : Tininess)

theorem mulAddValue_onePat (a c : Pat fmt) : mulAddValue fmt a (onePat fmt) c = sumValue fmt false a c := by
  rw [mulAddValue, valueOf_onePat, mul_one]
  rfl

/-- With the value 0 the two kernels look at the signs of the same two zeros. -/
theorem mulAdd_onePat_of_finite (ha : isFinite fmt a = true) (hc : isFinite fmt c = true) :
    mulAdd cfg fmt a (onePat fmt) c rm tm = addSub fmt false a c rm tm := by
  have hvalue := mulAddValue_onePat a c
  by_cases hsum : sumValue fmt false a c = 0
  · have hboth : isZero fmt a = true → isZero fmt c = true := fun hz => by
      rwa [← hvalue, mulAddValue_of_isZero c (.inl hz), valueOf_eq_zero_iff] at hsum
    rw [mulAdd_of_mulAddValue_eq_zero cfg ha (isFinite_onePat fmt) hc (hvalue.trans hsum),
      addSub_of_sumValue_eq_zero rm tm ha hc hsum]
    simp only [onePat_fields, isZero_onePat, Bool.xor_false, Bool.false_eq_true, or_false,
      eq_comm (a := signOf fmt c), ← and_assoc, and_iff_left_of_imp hboth]
  · have hround := engineRounds_mulAdd cfg ha (isFinite_onePat fmt) hc (hvalue ▸ hsum)
    exact (hvalue ▸ hround).unique (engineRounds_addSub ha hc hsum) rm tm

theorem mulAdd_onePat_of_isInf (ha : isInf fmt a = true) (hc : isNaN fmt c = false) :
    mulAdd cfg fmt a (onePat fmt) c rm tm = addSub fmt false a c rm tm := by
  have hone : isNaN fmt (onePat fmt) = false := (isFinite_excludes (isFinite_onePat fmt)).1
  have hprod : InfiniteProduct fmt a (onePat fmt) := .inl ⟨ha, by simp [hone], by simp [isZero_onePat]⟩
  rw [mulAdd_of_infiniteProduct rm tm cfg hprod (by simp [hc]), (onePat_fields fmt).1, Bool.xor_false,
    ← eq_infPat_of_isInf ha]
  cases hic : isInf fmt c with
  | true =>
    rw [addSub_inf_inf rm tm false ha hic, Bool.xor_false]
    by_cases hs : signOf fmt a = signOf fmt c
    · rw [if_neg (by simp [hs]), if_pos hs]
    · rw [if_pos ⟨rfl, Ne.symm hs⟩, if_neg hs]
  | false =>
    rw [addSub_inf_finite rm tm false ha (isFinite_of_not_isNaN_not_isInf hc hic),
      if_neg fun h => Bool.false_ne_true h.1]

/-- R200 (c). -/
theorem mulAdd_onePat (ha : isNaN fmt a = false) (hc : isNaN fmt c = false) :
    mulAdd cfg fmt a (onePat fmt) c rm tm = addSub fmt false a c rm tm := by
  cases hia : isInf fmt a with
  | true => exact mulAdd_onePat_of_isInf cfg rm tm hia hc
  | false =>
    have hfa := isFinite_of_not_isNaN_not_isInf ha hia
    cases hic : isInf fmt c with
    | true =>
      rw [mulAdd_finite_inf rm tm cfg hfa (isFinite_onePat fmt) hic, addSub_finite_inf rm tm false hfa hic,
        Bool.xor_false, ← eq_infPat_of_isInf hic]
    | false => exact mulAdd_onePat_of_finite cfg rm tm hfa (isFinite_of_not_isNaN_not_isInf hc hic)

end One

theorem patOf_opsOf_c (fmt : Fmt) (a b c : Pat fmt) : patOf fmt (opsOf fmt a b c).c = c := patOf_setWidth fmt c

/-- Settles O54: the factors by symmetry, a zero addend and a factor 1 by the exact value. -/
theorem mulLaws : Obligations.MulLaws := by
  intro fmt a b c rm exact s
  simp only [exec_mulInstr, exec_mulAddInstr, exec_addSubInstr, patOf_opsOf_a, patOf_opsOf_b, patOf_opsOf_c,
    Bool.not_eq_true]
  refine ⟨?_, ?_, fun ⟨ha, hza, hb, hzb, hc⟩ => ?_, fun ⟨ha, hc⟩ => ?_⟩
  · rw [mul_comm_factors]
  · rw [mulAdd_comm_factors]
  · rw [mulAdd_zero_addend config rm s.tininess ha hb hza hzb hc]
  · exact congrArg s.finishPattern (mulAdd_onePat config rm s.tininess ha hc)

end Sys2Proof.Machine
end

section
/-! The multiplier's datapath (46_mul_fma.md R191). Its double-width product is the exact one, and its shift with jam is
the one the bridge of R136 makes, but for a product without a carry: there the datapath jams one place too far and moves
up again. The engine does not see that, because its half is a multiple of 4 and a denormalising shift jams anyway. -/

namespace Sys2Proof.Machine

section Operand
variable {fmt : Fmt} {a : Pat fmt}

theorem fracOf_or_hidden (a : Pat fmt) : fracOf fmt a ||| 2 ^ fmt.t = 2 ^ fmt.t + fracOf fmt a := by
  have hor := Nat.two_pow_add_eq_or_of_lt (fracOf_lt fmt a) 1
  rw [mul_one] at hor
  rw [hor, Nat.or_comm]

/-- The opening lines of the datapaths put the leading 1 in place and keep the magnitude. -/
theorem normOperand_spec (hz : isZero fmt a = false) :
    ∃ (e : Int) (f : Nat), normOperand fmt a = some (e, f) ∧ 2 ^ fmt.t ≤ f ∧ f < 2 ^ fmt.p ∧
      magOf ℚ fmt a = f * 2 ^ (e - fmt.bias - fmt.t) := by
  have hf := fracOf_lt fmt a
  by_cases he : expOf fmt a = 0
  · have hpos : 0 < fracOf fmt a := Nat.pos_of_ne_zero fun h0 => by simp [isZero, he, h0] at hz
    obtain ⟨e, f, hnorm, hlo, hhi, -, hval⟩ := subnormalNormalisationKeepsValue fmt _ hpos hf
    exact ⟨e, f, by rw [normOperand, if_pos he, hnorm], hlo, hhi, (magOf_of_expOf_eq_zero he).trans hval⟩
  · have hp : 2 ^ fmt.p = 2 ^ fmt.t * 2 := pow_succ 2 fmt.t
    refine ⟨expOf fmt a, 2 ^ fmt.t + fracOf fmt a, ?_, by omega, by omega, ?_⟩
    · rw [normOperand, if_neg he, fracOf_or_hidden]
    · simp only [magOf, unpack, if_neg he]

end Operand

section Bottom
variable {fmt : Fmt} {sig : Nat}

/-- The width only bounds the input. -/
theorem shiftRightJam_width {n m d : Nat} (hn : sig < 2 ^ n) (hm : sig < 2 ^ m) :
    shiftRightJam n sig d = shiftRightJam m sig d := by
  rw [shiftRightJam_eq d hn, shiftRightJam_eq d hm]

theorem shiftRightJam_shiftLeft_one {n : Nat} (h : sig <<< 1 < 2 ^ n) (d : Nat) :
    shiftRightJam n (sig <<< 1) (d + 1) = shiftRightJam n sig d := by
  have hone : shiftRightJam n (sig <<< 1) 1 = sig := by
    rw [shiftRightJam_eq 1 h, pow_one, Nat.shiftLeft_eq, pow_one, Nat.mul_div_cancel _ Nat.two_pos, Nat.mul_mod_left,
      bne_self_eq_false, jamBit_false, Nat.or_zero]
  rw [Nat.add_comm, ← shiftRightJam_shiftRightJam 1 d h, hone]

/-- The significand with its bottom place jammed into the one above, and moved back. -/
def jamBottom (fmt : Fmt) (sig : Nat) : Nat := shiftRightJam fmt.k sig 1 <<< 1

variable (h : sig < fmt.top)
include h

theorem jamBottom_lt : jamBottom fmt sig < fmt.top := by
  have heven : 2 ∣ 2 ^ (fmt.t + fmt.g) := by cases fmt <;> decide
  have hhalf : shiftRightJam fmt.k sig 1 < 2 ^ (fmt.t + fmt.g) := by
    rw [← not_le, even_le_shiftRightJam_iff 1 (lt_two_pow_k_of_lt_top h) heven, not_le]
    rwa [top_eq, Nat.mul_comm] at h
  rw [jamBottom, Nat.shiftLeft_eq, pow_one, top_eq]
  omega

/-- Half a last place is a multiple of 4, so it compares with both significands alike. -/
theorem jamBottom_coarse : ComparesLike fmt.half (jamBottom fmt sig) (sig : ℚ) := by
  have hjam := ((comparesLike_self (K := ℚ) 2 sig).jam 1 (lt_two_pow_k_of_lt_top h)).mul_right Nat.two_pos
  rw [pow_one, Nat.cast_ofNat, div_mul_cancel₀ _ two_ne_zero] at hjam
  rw [jamBottom, Nat.shiftLeft_eq, pow_one]
  exact hjam.of_dvd (two_pow_dvd_half (c := 2) le_rfl)

/-- A denormalising shift jams the bottom place in any case. -/
theorem denormSig_jamBottom {exp : Int} (hexp : exp < 0) :
    denormSig fmt exp (jamBottom fmt sig) = denormSig fmt exp sig := by
  obtain ⟨d, hd⟩ : ∃ d, (-exp).toNat = d + 1 := ⟨(-exp).toNat - 1, by omega⟩
  rw [denormSig, denormSig, hd, jamBottom, shiftRightJam_shiftLeft_one (lt_two_pow_k_of_lt_top (jamBottom_lt h)),
    shiftRightJam_shiftRightJam 1 d (lt_two_pow_k_of_lt_top h), Nat.add_comm]

theorem roundPack_jamBottom (s : Bool) (exp : Int) (rm : RoundingMode) (tm : Tininess) :
    roundPack fmt s exp (jamBottom fmt sig) rm tm = roundPack fmt s exp sig rm tm := by
  have hcoarse := jamBottom_coarse h
  have hself := comparesLike_self (K := ℚ) fmt.half sig
  obtain hneg | hnonneg := lt_or_ge exp 0
  · have hmin : 3 ≤ fmt.expMax := by cases fmt <;> decide
    have hov (sig' : Nat) : ¬ Overflows fmt s rm exp sig' := by unfold Overflows; omega
    have htiny : isTiny fmt s exp (jamBottom fmt sig) rm tm = isTiny fmt s exp sig rm tm := by
      have hcarry := two_pow_p_le_roundedSig_iff (fmt := fmt) (s := s) (rm := rm) (sig := jamBottom fmt sig)
      rw [(roundedSig_eq_of_coarse hcoarse hself s rm).1, two_pow_p_le_roundedSig_iff] at hcarry
      simp only [isTiny, ← not_le, hcarry]
    rw [roundPack_of_not_overflows (hov _), roundPack_of_not_overflows (hov _), denormSig_jamBottom h hneg, htiny]
  · exact roundPack_eq_of_coarse hnonneg hcoarse hself

end Bottom

section Product
variable {fmt : Fmt} {a b : Pat fmt}

/-- The bridge shifts the magnitude to `k - 1` bits. -/
theorem bridgeSig_of_bitlen {m n d : Nat} (hlen : bitlen m = d + (fmt.k - 1)) (hn : m < 2 ^ n) :
    bridgeSig fmt m false = shiftRightJam n m d := by
  have hd : bitlen m - (fmt.k - 1) = d := by omega
  rw [bridgeSig_exact (by omega), hd, shiftRightJam_width (lt_two_pow_bitlen m) hn]

/-- How R191 ends: the high half of the product with the low half jammed, moved up when nothing was carried. -/
def finishProduct (fmt : Fmt) (s : Bool) (ez : Int) (prod : Nat) (rm : RoundingMode) (tm : Tininess) :
    FloatResult fmt :=
  let sz := shiftRightJam (2 * fmt.k) prod fmt.k
  if sz < 2 ^ (fmt.k - 2) then roundPack fmt s (ez - 1) (sz <<< 1) rm tm else roundPack fmt s ez sz rm tm

/-- The exponent of the product's last place. -/
def productUnit (fmt : Fmt) (ez : Int) : Int := ez - fmt.bias - 2 * fmt.k + 3

theorem bridgeExp_productUnit {prod d : Nat} (hlen : bitlen prod = d + (fmt.k - 1)) (ez : Int) :
    bridgeExp fmt prod (productUnit fmt ez) = ez + d - fmt.k := by
  have hk : 4 ≤ fmt.k := by cases fmt <;> decide
  rw [bridgeExp, productUnit, hlen]
  omega

section Finish
variable {prod : Nat} (s : Bool) (ez : Int) (rm : RoundingMode) (tm : Tininess)

theorem high_half_lt_iff (h : prod < 2 ^ (2 * fmt.k)) :
    shiftRightJam (2 * fmt.k) prod fmt.k < 2 ^ (fmt.k - 2) ↔ prod < 2 ^ (2 * fmt.k - 2) := by
  have hsplit : 2 ^ (2 * fmt.k - 2) = 2 ^ (fmt.k - 2) * 2 ^ fmt.k ∧ 2 ∣ 2 ^ (fmt.k - 2) := by cases fmt <;> decide
  rw [← not_le, even_le_shiftRightJam_iff _ h hsplit.2, not_le, hsplit.1]

/-- Without a carry the shift goes one place further than the bridge's, and back. -/
theorem high_half_eq_jamBottom (h : prod < 2 ^ (2 * fmt.k - 2)) :
    shiftRightJam (2 * fmt.k) prod (fmt.k - 1) < fmt.top ∧
      shiftRightJam (2 * fmt.k) prod fmt.k <<< 1 =
        jamBottom fmt (shiftRightJam (2 * fmt.k) prod (fmt.k - 1)) := by
  have hk : fmt.k - 1 + 1 = fmt.k ∧ 2 ^ (2 * fmt.k - 2) = fmt.top * 2 ^ (fmt.k - 1) := by cases fmt <;> decide
  have hwide : prod < 2 ^ (2 * fmt.k) := h.trans_le (Nat.pow_le_pow_right Nat.two_pos (Nat.sub_le ..))
  have hlt : shiftRightJam (2 * fmt.k) prod (fmt.k - 1) < fmt.top := by
    rwa [← not_le, even_le_shiftRightJam_iff _ hwide (top_eq fmt ▸ Nat.dvd_mul_right ..), not_le, ← hk.2]
  refine ⟨hlt, ?_⟩
  rw [jamBottom, shiftRightJam_width (lt_two_pow_k_of_lt_top hlt) (shiftRightJam_lt _ hwide),
    shiftRightJam_shiftRightJam _ 1 hwide, hk.1]

/-- R191's last lines are the bridge of R136. -/
theorem finishProduct_eq_roundExact (hlo : 2 ^ (2 * fmt.k - 3) ≤ prod) (hhi : prod < 2 ^ (2 * fmt.k - 1)) :
    finishProduct fmt s ez prod rm tm = roundExact fmt s prod false (productUnit fmt ez) rm tm := by
  have hk : 4 ≤ fmt.k := by cases fmt <;> decide
  have hwide : prod < 2 ^ (2 * fmt.k) := hhi.trans_le (Nat.pow_le_pow_right Nat.two_pos (Nat.sub_le ..))
  rw [roundExact_eq_roundPack_bridge, finishProduct]
  by_cases hc : prod < 2 ^ (2 * fmt.k - 2)
  · have hlen : bitlen prod = fmt.k - 1 + (fmt.k - 1) :=
      (bitlen_eq_of_bounds hlo (hc.trans_eq (by congr 1; omega))).trans (by omega)
    have hexp : ez + (fmt.k - 1 : Nat) - fmt.k = ez - 1 := by omega
    obtain ⟨hlt, hjam⟩ := high_half_eq_jamBottom hc
    simp only [if_pos ((high_half_lt_iff hwide).mpr hc), hjam, roundPack_jamBottom hlt,
      bridgeExp_productUnit hlen, hexp, bridgeSig_of_bitlen hlen hwide]
  · have hlen : bitlen prod = fmt.k + (fmt.k - 1) :=
      (bitlen_eq_of_bounds (not_lt.mp hc) (hhi.trans_eq (by congr 1; omega))).trans (by omega)
    simp only [if_neg (mt (high_half_lt_iff hwide).mp hc), bridgeExp_productUnit hlen, add_sub_cancel_right,
      bridgeSig_of_bitlen hlen hwide]

end Finish

section Significands
variable {ea eb : Int} {fa fb : Nat}

/-- R191's product of two normalised significands. -/
def mulProduct (fmt : Fmt) (fa fb : Nat) : Nat := (fa <<< fmt.g) * (fb <<< (fmt.g + 1))

theorem mulProduct_eq (fmt : Fmt) (fa fb : Nat) : mulProduct fmt fa fb = fa * fb * 2 ^ (2 * fmt.g + 1) := by
  rw [mulProduct, Nat.shiftLeft_eq, Nat.shiftLeft_eq]
  ring

theorem le_mulProduct (ha : 2 ^ fmt.t ≤ fa) (hb : 2 ^ fmt.t ≤ fb) : 2 ^ (2 * fmt.k - 3) ≤ mulProduct fmt fa fb := by
  have hsplit : 2 ^ (2 * fmt.k - 3) = 2 ^ fmt.t * 2 ^ fmt.t * 2 ^ (2 * fmt.g + 1) := by cases fmt <;> rfl
  rw [mulProduct_eq, hsplit]
  gcongr

theorem mulProduct_lt (ha : fa < 2 ^ fmt.p) (hb : fb < 2 ^ fmt.p) : mulProduct fmt fa fb < 2 ^ (2 * fmt.k - 1) := by
  have hsplit : 2 ^ (2 * fmt.k - 1) = 2 ^ fmt.p * 2 ^ fmt.p * 2 ^ (2 * fmt.g + 1) := by cases fmt <;> rfl
  rw [mulProduct_eq, hsplit]
  gcongr

/-- The product is exact in units of its last place. -/
theorem mulProduct_value (ha : magOf ℚ fmt a = fa * 2 ^ (ea - fmt.bias - fmt.t))
    (hb : magOf ℚ fmt b = fb * 2 ^ (eb - fmt.bias - fmt.t)) :
    magOf ℚ fmt a * magOf ℚ fmt b =
      mulProduct fmt fa fb * 2 ^ productUnit fmt (ea + eb - fmt.bias) := by
  have hg : (2 * fmt.g + 1 : Nat) - 2 * (fmt.k : Int) + 3 = -(2 * fmt.t : Nat) := by cases fmt <;> rfl
  have hexp : (ea - fmt.bias - fmt.t) + (eb - fmt.bias - fmt.t) =
      (2 * fmt.g + 1 : Nat) + productUnit fmt (ea + eb - fmt.bias) := by
    rw [productUnit]
    omega
  rw [ha, hb, mul_mul_mul_comm, ← zpow_add₀ two_ne_zero, hexp, zpow_add₀ two_ne_zero, zpow_natCast, mulProduct_eq]
  push_cast
  ring

/-- The datapath on normalised operands. -/
theorem mulDatapath_of_normOperand (ha : normOperand fmt a = some (ea, fa)) (hb : normOperand fmt b = some (eb, fb))
    (rm : RoundingMode) (tm : Tininess) :
    mulDatapath fmt a b rm tm =
      some (finishProduct fmt (signOf fmt a ^^ signOf fmt b) (ea + eb - fmt.bias) (mulProduct fmt fa fb) rm tm) := by
  simp only [mulDatapath, ha, hb, Option.bind_eq_bind, Option.bind_some, finishProduct, mulProduct]
  exact (apply_ite some ..).symm

end Significands
end Product

/-- Settles O57: the datapath's product is the exact one, and its end is the bridge of the kernel. -/
theorem mulDatapathAgrees : Obligations.MulDatapathAgrees := by
  intro fmt a b rm tm ha hza hb hzb
  obtain ⟨ea, fa, hna, hloa, hhia, hva⟩ := normOperand_spec hza
  obtain ⟨eb, fb, hnb, hlob, hhib, hvb⟩ := normOperand_spec hzb
  have hlo := le_mulProduct hloa hlob
  have hround := engineRounds_roundExact (fmt := fmt) (signOf fmt a ^^ signOf fmt b) ((Nat.two_pow_pos _).trans_le hlo)
    (productUnit fmt (ea + eb - fmt.bias))
  rw [← mulProduct_value hva hvb, ← mul_valueOf_eq_withSign] at hround
  rw [mulDatapath_of_normOperand hna hnb, finishProduct_eq_roundExact _ _ _ _ hlo (mulProduct_lt hhia hhib)]
  exact congrArg some (hround.unique (engineRounds_mul ha hb hza hzb) rm tm)

end Sys2Proof.Machine
end

section
/-! A significand with a sticky bit (43_rounding_engine.md R136): what a long division and an integer square root leave
below their last place. Its bottom bit, jammed, compares with the even numbers as the exact value does, so a datapath
that hands such a significand to the engine is in the convention of R130, where the exact value fixes both arguments. -/

namespace Sys2Proof.Machine

section Sticky
variable {K : Type} [Field K] [LinearOrder K] {n : Nat} {sticky : Bool} {y : K}

/-- `n` is `y` when nothing is left over, else the integer below it. -/
def TruncatesTo (n : Nat) (sticky : Bool) (y : K) : Prop :=
  if sticky then (n : K) < y ∧ y < n + 1 else y = n

variable [IsStrictOrderedRing K]

/-- A quotient of natural numbers and whether its division has a remainder. -/
theorem truncatesTo_div {a b : Nat} (hb : 0 < b) : TruncatesTo (a / b) (a % b != 0) ((a : K) / b) := by
  have hb' : (0 : K) < b := Nat.cast_pos.mpr hb
  have hdiv := Nat.div_add_mod a b
  have hmod := Nat.mod_lt a hb
  by_cases hr : a % b = 0
  · have hexact : a = a / b * b := by rw [Nat.mul_comm]; omega
    simp only [TruncatesTo, hr, bne_self_eq_false, Bool.false_eq_true, if_false]
    rw [div_eq_iff hb'.ne']
    exact_mod_cast hexact
  · have hlo : a / b * b < a := by rw [Nat.mul_comm]; omega
    have hhi : a < (a / b + 1) * b := by rw [Nat.mul_comm, Nat.mul_add]; omega
    simp only [TruncatesTo, bne_iff_ne.mpr hr, if_true]
    rw [lt_div_iff₀ hb', div_lt_iff₀ hb']
    exact ⟨by exact_mod_cast hlo, by exact_mod_cast hhi⟩

/-- An integer square root and whether its square falls short. -/
theorem truncatesTo_isqrt (a : Nat) : TruncatesTo (isqrt a) (isqrt a * isqrt a != a) (Real.sqrt a) := by
  obtain ⟨hlo, hhi⟩ := isqrt_spec a
  have hr : (0 : ℝ) ≤ isqrt a := Nat.cast_nonneg _
  by_cases hexact : isqrt a * isqrt a = a
  · simp only [TruncatesTo, hexact, bne_self_eq_false, Bool.false_eq_true, if_false]
    rw [Real.sqrt_eq_iff_mul_self_eq (Nat.cast_nonneg a) hr]
    exact_mod_cast hexact.symm
  · simp only [TruncatesTo, bne_iff_ne.mpr hexact, if_true]
    rw [Real.lt_sqrt hr, Real.sqrt_lt' (by positivity), pow_two, pow_two]
    exact ⟨by exact_mod_cast hlo.lt_of_ne hexact, by exact_mod_cast hhi⟩

namespace TruncatesTo
variable (h : TruncatesTo n sticky y)
include h

/-- What the bridge of R136 takes, in any unit, when the significand fills its width. -/
theorem bridgeMagnitude {fmt : Fmt} (hlen : fmt.k - 1 ≤ bitlen n) (e : Int) :
    BridgeMagnitude fmt n sticky e (y * 2 ^ e) := by
  have hpos : (0 : K) < 2 ^ e := by positivity
  cases sticky with
  | true => exact ⟨mul_lt_mul_of_pos_right h.1 hpos, mul_lt_mul_of_pos_right h.2 hpos, hlen⟩
  | false => exact congrArg (· * 2 ^ e) h

/-- Jamming the sticky bit into the last place rounds to odd (R105). -/
theorem comparesLike_jam : ComparesLike 2 (n ||| jamBit sticky) y := by
  cases sticky with
  | true =>
    obtain ⟨hlo, hhi⟩ := h
    have hjam := (comparesLike_of_between hlo hhi).jam 1 (Nat.lt_two_pow_self (n := 2 * n + 1))
    have hodd : (2 * n + 1) / 2 = n ∧ (2 * n + 1) % 2 = 1 := by omega
    rw [shiftRightJam_eq 1 Nat.lt_two_pow_self, pow_one, pow_one, hodd.1, hodd.2,
      mul_div_cancel_left₀ _ (two_ne_zero' K)] at hjam
    exact hjam
  | false =>
    obtain rfl : y = n := h
    rw [jamBit_false, Nat.or_zero]
    exact comparesLike_self 2 n

end TruncatesTo
end Sticky

section Engine
variable {fmt : Fmt} {exp exp' : Int} {sig sig' n : Nat} {sticky : Bool} {K : Type} [Field K] [LinearOrder K]
  [IsStrictOrderedRing K] [FloorRing K] {x : K}

/-- A significand with its leading 1 in bit `k - 2` that reads the magnitude is in the convention of R130. -/
theorem engineInput_of_reads (h : ComparesLike 2 sig (x / 2 ^ (exp + fmt.emin - fmt.t - fmt.g)))
    (hlo : fmt.top ≤ 2 * sig) (hhi : sig < fmt.top) : EngineInput fmt exp sig x := by
  have hpos : (0 : K) < 2 ^ (exp + fmt.emin - fmt.t - fmt.g) := by positivity
  have heven : 2 ∣ 2 ^ (fmt.t + fmt.g) := by cases fmt <;> decide
  have hlead : ((2 ^ (fmt.t + fmt.g) : Nat) : K) * 2 ^ (exp + fmt.emin - fmt.t - fmt.g) = 2 ^ (exp + fmt.emin) := by
    rw [Nat.cast_pow, Nat.cast_ofNat, ← zpow_natCast, ← zpow_add₀ two_ne_zero]
    congr 1
    push_cast
    ring
  rw [top_eq] at hlo hhi
  have hge : (2 : K) ^ (exp + fmt.emin) ≤ x := by
    rw [← hlead, ← le_div_iff₀ hpos]
    exact (h _ heven).1.mp (Nat.le_of_mul_le_mul_left hlo Nat.two_pos)
  have hlt : x < (2 : K) ^ (exp + fmt.emin + 1) := by
    rw [zpow_add_one₀ two_ne_zero, ← hlead, mul_right_comm, ← div_lt_iff₀ hpos, mul_comm]
    exact_mod_cast (h.gt_iff (Nat.dvd_mul_right ..)).mp hhi
  have hx : 0 < x := hge.trans_lt' (by positivity)
  have hle := (Int.zpow_le_iff_le_log one_lt_two hx).mp (by exact_mod_cast hge)
  have hgt := (Int.lt_zpow_iff_log_lt one_lt_two hx).mp (by exact_mod_cast hlt)
  exact ⟨hx, by omega, h⟩

/-- A truncated significand of `k - 1` bits, its sticky bit jammed. -/
theorem TruncatesTo.engineInput (h : TruncatesTo n sticky (x / 2 ^ (exp + fmt.emin - fmt.t - fmt.g)))
    (hlo : 2 ^ (fmt.k - 2) ≤ n) (hhi : n < 2 ^ (fmt.k - 1)) :
    EngineInput fmt exp (n ||| jamBit sticky) x := by
  have htop : fmt.top = 2 * 2 ^ (fmt.k - 2) ∧ 1 < 2 ^ (fmt.k - 1) := by cases fmt <;> decide
  refine engineInput_of_reads h.comparesLike_jam ?_ (Nat.or_lt_two_pow hhi ((jamBit_le_one _).trans_lt htop.2))
  rw [htop.1]
  exact Nat.mul_le_mul_left 2 (hlo.trans Nat.left_le_or)

omit [IsStrictOrderedRing K] in
/-- The magnitude fixes what the engine is handed. -/
theorem EngineInput.roundPack_eq (h : EngineInput fmt exp sig x) (h' : EngineInput fmt exp' sig' x) (s : Bool)
    (rm : RoundingMode) (tm : Tininess) : roundPack fmt s exp sig rm tm = roundPack fmt s exp' sig' rm tm := by
  obtain rfl : exp = exp' := add_right_cancel (h.log_eq.symm.trans h'.log_eq)
  rw [eq_of_even_comparisons (fun m hm => (h.reads m hm).2.trans (h'.reads m hm).2.symm)
    fun m hm => (h.reads m hm).1.trans (h'.reads m hm).1.symm]

theorem lt_bitlen_of_two_pow_le {l : Nat} (h : 2 ^ l ≤ n) : l < bitlen n :=
  (Nat.pow_lt_pow_iff_right Nat.one_lt_two).mp (h.trans_lt (lt_two_pow_bitlen n))

end Engine

end Sys2Proof.Machine
end

section
/-! Division of finite operands (47_div_rem_sqrt.md R205, R206). The kernel divides with 128 guard bits and the datapath
with just the engine's width, each with a sticky bit for the remainder, so both round the exact quotient. -/

namespace Sys2Proof.Machine

section Div
variable {fmt : Fmt} {a b : Pat fmt}

theorem div_of_isZero (ha : isZero fmt a = true) (hb : isFinite fmt b = true) (hzb : isZero fmt b = false)
    (rm : RoundingMode) (tm : Tininess) :
    div fmt a b rm tm = (zeroPat fmt (signOf fmt a ^^ signOf fmt b), noFlags) := by
  simp [div, isZero_excludes ha, isFinite_excludes hb, hzb, ha]

theorem div_of_finite (ha : isFinite fmt a = true) (hza : isZero fmt a = false) (hb : isFinite fmt b = true)
    (hzb : isZero fmt b = false) (rm : RoundingMode) (tm : Tininess) :
    div fmt a b rm tm =
      roundExact fmt (signOf fmt a ^^ signOf fmt b) ((unpack fmt a).m * 2 ^ 128 / (unpack fmt b).m)
        ((unpack fmt a).m * 2 ^ 128 % (unpack fmt b).m != 0) ((unpack fmt a).q - (unpack fmt b).q - 128) rm tm := by
  simp [div, isFinite_excludes ha, isFinite_excludes hb, hza, hzb]

theorem magOf_div_magOf (a b : Pat fmt) :
    magOf ℚ fmt a / magOf ℚ fmt b =
      (((unpack fmt a).m * 2 ^ 128 : Nat) : ℚ) / (unpack fmt b).m *
        2 ^ ((unpack fmt a).q - (unpack fmt b).q - 128) := by
  rw [magOf, magOf, zpow_sub₀ two_ne_zero, zpow_sub₀ two_ne_zero]
  push_cast
  ring

/-- The kernel's quotient fills the engine's width. -/
theorem div_engineInput (hza : isZero fmt a = false) (hzb : isZero fmt b = false) :
    ∃ exp sig, EngineInput fmt exp sig (magOf ℚ fmt a / magOf ℚ fmt b) ∧ ∀ s rm tm,
      roundExact fmt s ((unpack fmt a).m * 2 ^ 128 / (unpack fmt b).m)
        ((unpack fmt a).m * 2 ^ 128 % (unpack fmt b).m != 0) ((unpack fmt a).q - (unpack fmt b).q - 128) rm tm =
        roundPack fmt s exp sig rm tm := by
  have hma := unpack_m_pos hza
  have hmb := unpack_m_pos hzb
  have hp : 2 ^ fmt.p ≤ 2 ^ 53 ∧ fmt.k - 1 ≤ 64 := by cases fmt <;> decide
  have hle : 2 ^ 64 ≤ (unpack fmt a).m * 2 ^ 128 / (unpack fmt b).m := by
    rw [Nat.le_div_iff_mul_le hmb]
    calc 2 ^ 64 * (unpack fmt b).m ≤ 2 ^ 64 * 2 ^ 53 := Nat.mul_le_mul_left _ ((unpack_m_lt fmt b).le.trans hp.1)
      _ ≤ 1 * 2 ^ 128 := by decide
      _ ≤ _ := Nat.mul_le_mul_right _ hma
  have hlen := hp.2.trans (lt_bitlen_of_two_pow_le hle).le
  refine ⟨_, _, ?_, fun s rm tm => roundExact_eq_roundPack_bridge ..⟩
  rw [magOf_div_magOf]
  exact bridge_engineInput ((Nat.two_pow_pos 64).trans_le hle) ((truncatesTo_div hmb).bridgeMagnitude hlen _)

/-- Settles O38: the quotient of the significands with its sticky bit stands for the exact quotient. -/
theorem divOfFinite : Obligations.DivOfFinite := by
  intro fmt rm exact ops s a b sp ha hb hzb
  refine ⟨fun hza => answers_of_exec (exec_divInstr ..) (div_of_isZero hza hb hzb rm s.tininess), fun hza => ?_⟩
  rw [Bool.not_eq_true] at hza
  obtain ⟨exp, sig, hin, hround⟩ := div_engineInput hza hzb
  refine ⟨_, hin.correctlyRounded_roundPack sp rm s.tininess, answers_of_exec (exec_divInstr ..) ?_⟩
  exact (div_of_finite ha hza hb hzb rm s.tininess).trans (hround ..)

/-- R206's dividend, with one place more when the quotient of the significands is below 1. -/
def divNumerator (fmt : Fmt) (xa xb : Nat) : Nat := if xa < xb then xa <<< (fmt.k - 1) else xa <<< (fmt.k - 2)

/-- R206's exponent. -/
def divExp (fmt : Fmt) (ea eb : Int) (xa xb : Nat) : Int :=
  if xa < xb then ea - eb + fmt.bias - 1 - 1 else ea - eb + fmt.bias - 1

theorem divDatapath_of_normOperand {ea eb : Int} {xa xb : Nat} (ha : normOperand fmt a = some (ea, xa))
    (hb : normOperand fmt b = some (eb, xb)) (rm : RoundingMode) (tm : Tininess) :
    divDatapath fmt a b rm tm =
      some (roundPack fmt (signOf fmt a ^^ signOf fmt b) (divExp fmt ea eb xa xb)
        (divNumerator fmt xa xb / xb ||| jamBit (divNumerator fmt xa xb % xb != 0)) rm tm) := by
  simp only [divDatapath, ha, hb, Option.bind_eq_bind, Option.bind_some, divExp, divNumerator]

/-- The quotient of two normalised significands has exactly `k - 1` bits. -/
theorem divNumerator_div_bounds {xa xb : Nat} (hloa : 2 ^ fmt.t ≤ xa) (hhia : xa < 2 ^ fmt.p) (hlob : 2 ^ fmt.t ≤ xb)
    (hhib : xb < 2 ^ fmt.p) :
    2 ^ (fmt.k - 2) ≤ divNumerator fmt xa xb / xb ∧ divNumerator fmt xa xb / xb < 2 ^ (fmt.k - 1) := by
  have hb : 0 < xb := (Nat.two_pow_pos _).trans_le hlob
  have hk : 2 ^ (fmt.k - 1) = 2 * 2 ^ (fmt.k - 2) := by cases fmt <;> rfl
  have hp : 2 ^ fmt.p = 2 * 2 ^ fmt.t := pow_succ' 2 fmt.t
  have hpos := Nat.two_pow_pos (fmt.k - 2)
  rw [Nat.le_div_iff_mul_le hb, Nat.div_lt_iff_lt_mul hb, divNumerator, hk, Nat.shiftLeft_eq, Nat.shiftLeft_eq, hk]
  split_ifs with hlt
  · constructor
    · calc 2 ^ (fmt.k - 2) * xb ≤ 2 ^ (fmt.k - 2) * (2 * xa) := Nat.mul_le_mul_left _ (by omega)
        _ = xa * (2 * 2 ^ (fmt.k - 2)) := by ring
    · rw [Nat.mul_comm]
      exact Nat.mul_lt_mul_of_pos_left hlt (by omega)
  · constructor
    · rw [Nat.mul_comm]
      exact Nat.mul_le_mul_right _ (not_lt.mp hlt)
    · calc xa * 2 ^ (fmt.k - 2) < 2 * xb * 2 ^ (fmt.k - 2) := Nat.mul_lt_mul_of_pos_right (by omega) hpos
        _ = 2 * 2 ^ (fmt.k - 2) * xb := by ring

/-- The datapath's quotient in units of its last place. -/
theorem divNumerator_div_value {ea eb : Int} {xa xb : Nat} (hb0 : 0 < xb)
    (ha : magOf ℚ fmt a = xa * 2 ^ (ea - fmt.bias - fmt.t))
    (hb : magOf ℚ fmt b = xb * 2 ^ (eb - fmt.bias - fmt.t)) :
    magOf ℚ fmt a / magOf ℚ fmt b / 2 ^ (divExp fmt ea eb xa xb + fmt.emin - fmt.t - fmt.g) =
      (divNumerator fmt xa xb : ℚ) / xb := by
  have hb0' : (xb : ℚ) ≠ 0 := Nat.cast_ne_zero.mpr hb0.ne'
  have hk : (fmt.t : Int) + fmt.g = (fmt.k - 2 : Nat) ∧ ((fmt.k - 1 : Nat) : Int) = (fmt.k - 2 : Nat) + 1 := by
    cases fmt <;> decide
  have hnum : (divNumerator fmt xa xb : ℚ) =
      xa * 2 ^ (ea - eb - (divExp fmt ea eb xa xb + fmt.emin - fmt.t - fmt.g)) := by
    rw [divNumerator, divExp, Fmt.emin]
    split_ifs <;> rw [Nat.shiftLeft_eq, Nat.cast_mul, Nat.cast_pow, Nat.cast_ofNat, ← zpow_natCast] <;>
      congr 2 <;> omega
  have hunit : ea - fmt.bias - fmt.t = ea - eb + (eb - fmt.bias - fmt.t) := by ring
  rw [hnum, ha, hb, hunit, zpow_add₀ two_ne_zero, zpow_sub₀ (two_ne_zero' ℚ) (ea - eb)]
  field_simp

/-- Settles O58: the datapath's jammed quotient reads the exact quotient, which fixes what the engine is handed. -/
theorem divDatapathAgrees : Obligations.DivDatapathAgrees := by
  intro fmt a b rm tm ha hza hb hzb
  obtain ⟨ea, xa, hna, hloa, hhia, hva⟩ := normOperand_spec hza
  obtain ⟨eb, xb, hnb, hlob, hhib, hvb⟩ := normOperand_spec hzb
  obtain ⟨hlo, hhi⟩ := divNumerator_div_bounds hloa hhia hlob hhib
  have hb0 : 0 < xb := (Nat.two_pow_pos _).trans_le hlob
  have htrunc := truncatesTo_div (K := ℚ) (a := divNumerator fmt xa xb) hb0
  rw [← divNumerator_div_value hb0 hva hvb] at htrunc
  obtain ⟨exp, sig, hin, hround⟩ := div_engineInput hza hzb
  rw [divDatapath_of_normOperand hna hnb, div_of_finite ha hza hb hzb, hround,
    (htrunc.engineInput hlo hhi).roundPack_eq hin]

end Div

end Sys2Proof.Machine
end

section
/-! Square root (47_div_rem_sqrt.md R215, R216). Each level roots an integer that is the operand in units of an even
power of two, and keeps a sticky bit for the rest, so both round the exact real root. -/

namespace Sys2Proof.Machine

/-- The root of a number in units of an even power of two. -/
theorem sqrt_mul_two_zpow (n : Nat) (e : Int) : Real.sqrt (n * 2 ^ (2 * e)) = Real.sqrt n * 2 ^ e := by
  rw [Real.sqrt_mul (Nat.cast_nonneg n), mul_comm 2 e, zpow_mul, zpow_ofNat, Real.sqrt_sq (by positivity)]

section Sqrt
variable {fmt : Fmt} {a : Pat fmt}

theorem cast_magOf (a : Pat fmt) : ((magOf ℚ fmt a : ℚ) : ℝ) = magOf ℝ fmt a := by
  simp only [magOf]
  push_cast
  rfl

theorem sqrt_of_isZero (hz : isZero fmt a = true) (rm : RoundingMode) (tm : Tininess) :
    sqrt fmt a rm tm = (a, noFlags) := by
  simp [sqrt, isZero_excludes hz, hz]

/-- R215's integer under the root: the significand, doubled at an odd exponent, over 128 guard bits. -/
def sqrtArg (fmt : Fmt) (a : Pat fmt) : Nat :=
  (if (unpack fmt a).q % 2 = 1 then 2 * (unpack fmt a).m else (unpack fmt a).m) * 2 ^ 128

/-- The exponent of the root's last place. -/
def sqrtExp (fmt : Fmt) (a : Pat fmt) : Int :=
  (if (unpack fmt a).q % 2 = 1 then (unpack fmt a).q - 1 else (unpack fmt a).q) / 2 - 64

theorem sqrt_of_finite (ha : isFinite fmt a = true) (hz : isZero fmt a = false) (hs : signOf fmt a = false)
    (rm : RoundingMode) (tm : Tininess) :
    sqrt fmt a rm tm =
      roundExact fmt false (isqrt (sqrtArg fmt a)) (isqrt (sqrtArg fmt a) * isqrt (sqrtArg fmt a) != sqrtArg fmt a)
        (sqrtExp fmt a) rm tm := by
  simp only [sqrt, isFinite_excludes ha, hz, hs, Bool.false_eq_true, if_false, sqrtArg, sqrtExp]

theorem magOf_eq_sqrtArg (a : Pat fmt) : magOf ℝ fmt a = sqrtArg fmt a * 2 ^ (2 * sqrtExp fmt a) := by
  have hsplit (e : Int) : (2 : ℝ) ^ (e + 128) = 2 ^ 128 * 2 ^ e := by
    rw [zpow_add₀ two_ne_zero, mul_comm]
    rfl
  rw [magOf, sqrtArg, sqrtExp]
  split_ifs with hodd
  · have hq : (unpack fmt a).q = 2 * (((unpack fmt a).q - 1) / 2 - 64) + 128 + 1 := by omega
    conv_lhs => rw [hq, zpow_add_one₀ two_ne_zero, hsplit]
    push_cast
    ring
  · have hq : (unpack fmt a).q = 2 * ((unpack fmt a).q / 2 - 64) + 128 := by omega
    conv_lhs => rw [hq, hsplit]
    push_cast
    ring

/-- The kernel's root fills the engine's width. -/
theorem sqrt_engineInput (ha : isFinite fmt a = true) (hz : isZero fmt a = false) (hs : signOf fmt a = false) :
    ∃ exp sig, EngineInput fmt exp sig (Real.sqrt (magOf ℝ fmt a)) ∧
      ∀ rm tm, sqrt fmt a rm tm = roundPack fmt false exp sig rm tm := by
  have hm := unpack_m_pos hz
  have hk : fmt.k - 1 ≤ 64 := by cases fmt <;> decide
  have hle : 2 ^ 64 ≤ isqrt (sqrtArg fmt a) := by
    rw [← Nat.lt_succ_iff, ← Nat.mul_self_lt_mul_self_iff]
    refine (isqrt_spec (sqrtArg fmt a)).2.trans_le' ?_
    rw [sqrtArg]
    split_ifs <;> omega
  refine ⟨_, _, ?_, fun rm tm => (sqrt_of_finite ha hz hs rm tm).trans (roundExact_eq_roundPack_bridge ..)⟩
  rw [magOf_eq_sqrtArg, sqrt_mul_two_zpow]
  exact bridge_engineInput ((Nat.two_pow_pos 64).trans_le hle)
    ((truncatesTo_isqrt _).bridgeMagnitude (hk.trans (lt_bitlen_of_two_pow_le hle).le) _)

/-- Settles O40: the integer root with its sticky bit stands for the real root. -/
theorem sqrtOfFinite : Obligations.SqrtOfFinite := by
  intro fmt rm exact ops s a ha
  refine ⟨fun hz => answers_of_exec (exec_sqrtInstr ..) (sqrt_of_isZero hz rm s.tininess), fun ⟨hz, hs⟩ => ?_⟩
  rw [Bool.not_eq_true] at hz hs
  obtain ⟨exp, sig, hin, hround⟩ := sqrt_engineInput ha hz hs
  exact ⟨_, hin.correctlyRounded_roundPack false rm s.tininess,
    answers_of_exec (exec_sqrtInstr ..) (hround rm s.tininess)⟩

/-- R216's integer under the root, from the normalised significand `f` and the unbiased exponent `d`. -/
def sqrtDatapathArg (fmt : Fmt) (d : Int) (f : Nat) : Nat := f <<< (d % 2).toNat <<< (2 * (fmt.k - 2) - fmt.t)

theorem sqrtDatapath_of_normOperand {e : Int} {f : Nat} (h : normOperand fmt a = some (e, f)) (rm : RoundingMode)
    (tm : Tininess) :
    let arg := sqrtDatapathArg fmt (e - fmt.bias) f
    sqrtDatapath fmt a rm tm =
      some (roundPack fmt false ((e - fmt.bias) / 2 + fmt.bias - 1)
        (isqrt arg ||| jamBit (isqrt arg * isqrt arg != arg)) rm tm) := by
  simp only [sqrtDatapath, h, Option.bind_eq_bind, Option.bind_some, sqrtDatapathArg]

/-- The datapath's root of a normalised significand has exactly `k - 1` bits. -/
theorem isqrt_sqrtDatapathArg_bounds {f : Nat} (hlo : 2 ^ fmt.t ≤ f) (hhi : f < 2 ^ fmt.p) (d : Int) :
    2 ^ (fmt.k - 2) ≤ isqrt (sqrtDatapathArg fmt d f) ∧ isqrt (sqrtDatapathArg fmt d f) < 2 ^ (fmt.k - 1) := by
  obtain ⟨hle, hlt⟩ := isqrt_spec (sqrtDatapathArg fmt d f)
  have hlow : 2 ^ (fmt.k - 2) * 2 ^ (fmt.k - 2) = 2 ^ fmt.t * 1 * 2 ^ (2 * (fmt.k - 2) - fmt.t) := by
    cases fmt <;> rfl
  have hhigh : 2 ^ (fmt.k - 1) * 2 ^ (fmt.k - 1) = 2 ^ fmt.p * 2 * 2 ^ (2 * (fmt.k - 2) - fmt.t) := by
    cases fmt <;> rfl
  have hparity : 1 ≤ 2 ^ (d % 2).toNat ∧ 2 ^ (d % 2).toNat ≤ 2 := by
    obtain h | h : d % 2 = 0 ∨ d % 2 = 1 := by omega
    · simp [h]
    · simp [h]
  have hpos := Nat.two_pow_pos (2 * (fmt.k - 2) - fmt.t)
  have harg : sqrtDatapathArg fmt d f = f * 2 ^ (d % 2).toNat * 2 ^ (2 * (fmt.k - 2) - fmt.t) := by
    rw [sqrtDatapathArg, Nat.shiftLeft_eq, Nat.shiftLeft_eq]
  constructor
  · rw [← Nat.lt_succ_iff, ← Nat.mul_self_lt_mul_self_iff, hlow]
    refine hlt.trans_le' ?_
    rw [harg]
    gcongr
    exact hparity.1
  · rw [← Nat.mul_self_lt_mul_self_iff, hhigh]
    refine hle.trans_lt ?_
    rw [harg]
    calc f * 2 ^ (d % 2).toNat * 2 ^ (2 * (fmt.k - 2) - fmt.t)
        ≤ f * 2 * 2 ^ (2 * (fmt.k - 2) - fmt.t) := by gcongr; exact hparity.2
      _ < 2 ^ fmt.p * 2 * 2 ^ (2 * (fmt.k - 2) - fmt.t) := by gcongr

/-- The datapath's root in units of its last place. -/
theorem sqrt_div_sqrtDatapath_unit {e : Int} {f : Nat} (h : magOf ℚ fmt a = f * 2 ^ (e - fmt.bias - fmt.t)) :
    Real.sqrt (magOf ℝ fmt a) / 2 ^ ((e - fmt.bias) / 2 + fmt.bias - 1 + fmt.emin - fmt.t - fmt.g) =
      Real.sqrt (sqrtDatapathArg fmt (e - fmt.bias) f) := by
  have hk : (fmt.t : Int) + fmt.g = (fmt.k - 2 : Nat) ∧
      ((2 * (fmt.k - 2) - fmt.t : Nat) : Int) = 2 * (fmt.k - 2 : Nat) - fmt.t := by cases fmt <;> decide
  have hunit : (e - fmt.bias) / 2 + fmt.bias - 1 + fmt.emin - fmt.t - fmt.g =
      (e - fmt.bias) / 2 - (fmt.k - 2 : Nat) := by
    rw [Fmt.emin]
    omega
  have hexp : e - fmt.bias - fmt.t = ((e - fmt.bias) % 2).toNat + (2 * (fmt.k - 2) - fmt.t : Nat) +
      2 * ((e - fmt.bias) / 2 - (fmt.k - 2 : Nat)) := by omega
  have hmag : magOf ℝ fmt a =
      sqrtDatapathArg fmt (e - fmt.bias) f * 2 ^ (2 * ((e - fmt.bias) / 2 - (fmt.k - 2 : Nat))) := by
    rw [← cast_magOf, h, hexp, zpow_add₀ two_ne_zero, zpow_add₀ two_ne_zero, zpow_natCast, zpow_natCast,
      sqrtDatapathArg, Nat.shiftLeft_eq, Nat.shiftLeft_eq]
    push_cast
    ring
  rw [hunit, hmag, sqrt_mul_two_zpow, mul_div_cancel_right₀ _ (by positivity)]

/-- Settles O59: the datapath's jammed root reads the exact root, which fixes what the engine is handed. -/
theorem sqrtDatapathAgrees : Obligations.SqrtDatapathAgrees := by
  intro fmt a rm tm ha hz hs
  obtain ⟨e, f, hnorm, hlo, hhi, hval⟩ := normOperand_spec hz
  obtain ⟨hge, hlt⟩ := isqrt_sqrtDatapathArg_bounds hlo hhi (e - fmt.bias)
  have htrunc := truncatesTo_isqrt (sqrtDatapathArg fmt (e - fmt.bias) f)
  rw [← sqrt_div_sqrtDatapath_unit hval] at htrunc
  obtain ⟨exp, sig, hin, hround⟩ := sqrt_engineInput ha hz hs
  rw [sqrtDatapath_of_normOperand hnorm, hround, (htrunc.engineInput hge hlt).roundPack_eq hin]

end Sqrt

end Sys2Proof.Machine
end

section
/-! Representable magnitudes (43_rounding_engine.md R142): a magnitude with a significand below `2^p` and an exponent in
the range of the format is the value of a pattern, and a magnitude that is the value of a pattern rounds to it, whatever
significand and exponent it is written in. -/

namespace Sys2Proof.Machine

section Representable
variable {fmt : Fmt} {m : Nat} {q : Int} {a z : Pat fmt}

theorem exists_pattern (s : Bool) (h0 : 0 < m) (hm : m < 2 ^ fmt.p) (hlo : fmt.emin - fmt.t ≤ q)
    (hhi : q ≤ fmt.emax - fmt.t) :
    ∃ z : Pat fmt, isFinite fmt z = true ∧ signOf fmt z = s ∧ magOf ℚ fmt z = m * 2 ^ q := by
  have hmax : (fmt.expMax : Int) = fmt.emax - fmt.emin + 2 := by cases fmt <;> rfl
  obtain ⟨e, he⟩ : ∃ e : Nat, q = e + fmt.emin - fmt.t := ⟨(q - (fmt.emin - fmt.t)).toNat, by omega⟩
  obtain ⟨hfin, hsign, hmag⟩ := pack_normalised_value s h0 hm (show e + 1 < fmt.expMax by omega)
  exact ⟨_, hfin, hsign, he ▸ hmag⟩

theorem isZero_of_magOf (h0 : 0 < m) (hv : magOf ℚ fmt z = m * 2 ^ q) : isZero fmt z = false := by
  rw [← magOf_pos_iff, hv]
  positivity

theorem roundExact_of_magOf (hz : isFinite fmt z = true) (h0 : 0 < m) (hv : magOf ℚ fmt z = m * 2 ^ q)
    (rm : RoundingMode) (tm : Tininess) : roundExact fmt (signOf fmt z) m false q rm tm = (z, noFlags) :=
  roundPack_of_magOf hz (hv ▸ bridge_engineInput_exact h0 q) rm tm

theorem packExact_of_magOf (hz : isFinite fmt z = true) (h0 : 0 < m) (hv : magOf ℚ fmt z = m * 2 ^ q) :
    packExact fmt (signOf fmt z) m q = z := congrArg Prod.fst (roundExact_of_magOf hz h0 hv .rtz .after)

/-- A zero pattern is finite, has its sign, and the value 0. -/
theorem zeroPat_spec (fmt : Fmt) (s : Bool) :
    isFinite fmt (zeroPat fmt s) = true ∧ signOf fmt (zeroPat fmt s) = s ∧ isZero fmt (zeroPat fmt s) = true ∧
      magOf ℚ fmt (zeroPat fmt s) = 0 := by
  obtain ⟨hs, he, hf⟩ := fields_pack (s := s) (Nat.zero_le fmt.expMax) (Nat.two_pow_pos fmt.t)
  have hz : isZero fmt (zeroPat fmt s) = true := by
    simp only [isZero, Bool.and_eq_true, beq_iff_eq]
    exact ⟨he, hf⟩
  exact ⟨isFinite_of_isZero hz, hs, hz, (magOf_eq_zero_iff _).mpr hz⟩

/-- The exponent of a finite pattern stays in the range of the format. -/
theorem unpack_q_le_of_isFinite (ha : isFinite fmt a = true) : (unpack fmt a).q ≤ fmt.emax - fmt.t := by
  have hmax : (fmt.expMax : Int) = fmt.emax - fmt.emin + 2 ∧ 2 ≤ fmt.expMax := by cases fmt <;> decide
  have he : expOf fmt a < fmt.expMax := by simpa [isFinite] using ha
  rw [unpack_q_eq]
  omega

theorem abs_withSign_eq (s : Bool) (x : ℚ) : |withSign s x| = |x| := by
  cases s <;> simp [withSign]

theorem valueOf_eq_withSign (a : Pat fmt) : valueOf ℚ fmt a = withSign (signOf fmt a) (magOf ℚ fmt a) := rfl

end Representable

end Sys2Proof.Machine
end

section
/-! The remainder of finite operands (47_div_rem_sqrt.md R210). In units of the smaller exponent the operands are
integers, and their balanced remainder is no larger than either of them, so it is a pattern. -/

namespace Sys2Proof.Machine

section Balanced
variable {x y : Nat}

/-- The integer nearest to `x / y`, the even one on a tie (R210). -/
def nearestQuot (x y : Nat) : Nat :=
  if y < 2 * (x % y) ∨ (2 * (x % y) = y ∧ x / y % 2 = 1) then x / y + 1 else x / y

/-- What is left of `x` (R210). -/
def balancedRem (x y : Nat) : Int :=
  if y < 2 * (x % y) ∨ (2 * (x % y) = y ∧ x / y % 2 = 1) then ((x % y : Nat) : Int) - y else (x % y : Nat)

theorem sub_nearestQuot_mul (x y : Nat) : (x : Int) - nearestQuot x y * y = balancedRem x y := by
  have hdiv : (x : Int) = (x / y : Nat) * y + (x % y : Nat) := by exact_mod_cast (Nat.div_add_mod' x y).symm
  rw [nearestQuot, balancedRem]
  split_ifs
  · rw [Nat.cast_succ, add_mul]
    omega
  · omega

/-- The remainder is at most half the divisor, half of it only at an even multiple, and at most the dividend. -/
theorem balancedRem_bounds (hy : 0 < y) :
    2 * (balancedRem x y).natAbs ≤ y ∧ (2 * (balancedRem x y).natAbs = y → nearestQuot x y % 2 = 0) ∧
      (balancedRem x y).natAbs ≤ x := by
  have hlt := Nat.mod_lt x hy
  have hle := Nat.mod_le x y
  rw [nearestQuot, balancedRem]
  split_ifs with hup
  · omega
  · omega

end Balanced

section Rem
variable {fmt : Fmt} {a b : Pat fmt}

/-- The magnitude of a pattern in units of `2 ^ q`. -/
def alignedMag (fmt : Fmt) (a : Pat fmt) (q : Int) : Nat := (unpack fmt a).m * 2 ^ ((unpack fmt a).q - q).toNat

theorem magOf_eq_alignedMag {q : Int} (hq : q ≤ (unpack fmt a).q) : magOf ℚ fmt a = alignedMag fmt a q * 2 ^ q := by
  have hexp : (unpack fmt a).q = ((unpack fmt a).q - q).toNat + q := by omega
  rw [magOf, alignedMag]
  conv_lhs => rw [hexp, zpow_add₀ two_ne_zero, zpow_natCast]
  push_cast
  ring

theorem alignExp_le_left (a b : Pat fmt) : alignExp fmt a b ≤ (unpack fmt a).q := min_le_left ..

theorem alignExp_le_right (a b : Pat fmt) : alignExp fmt a b ≤ (unpack fmt b).q := min_le_right ..

theorem alignedMag_pos (hz : isZero fmt a = false) (q : Int) : 0 < alignedMag fmt a q :=
  Nat.mul_pos (unpack_m_pos hz) (Nat.two_pow_pos _)

theorem alignedMag_self (a : Pat fmt) : alignedMag fmt a (unpack fmt a).q = (unpack fmt a).m := by
  rw [alignedMag, sub_self, Int.toNat_zero, pow_zero, mul_one]

/-- R210's remainder of the aligned magnitudes. -/
def alignedRem (fmt : Fmt) (a b : Pat fmt) : Int :=
  balancedRem (alignedMag fmt a (alignExp fmt a b)) (alignedMag fmt b (alignExp fmt a b))

/-- R210's multiple, in magnitude. -/
def alignedQuot (fmt : Fmt) (a b : Pat fmt) : Nat :=
  nearestQuot (alignedMag fmt a (alignExp fmt a b)) (alignedMag fmt b (alignExp fmt a b))

theorem rem_of_isZero (ha : isZero fmt a = true) (hb : isFinite fmt b = true) (hzb : isZero fmt b = false) :
    rem fmt a b = (a, noFlags) := by
  simp [rem, isZero_excludes ha, isFinite_excludes hb, hzb, ha]

theorem rem_of_finite (ha : isFinite fmt a = true) (hza : isZero fmt a = false) (hb : isFinite fmt b = true)
    (hzb : isZero fmt b = false) :
    rem fmt a b =
      (if alignedRem fmt a b = 0 then zeroPat fmt (signOf fmt a)
        else packExact fmt (signOf fmt a ^^ decide (alignedRem fmt a b < 0)) (alignedRem fmt a b).natAbs
          (alignExp fmt a b), noFlags) := by
  simp only [rem, isFinite_excludes ha, isFinite_excludes hb, hza, hzb, Bool.or_self, Bool.false_eq_true, if_false,
    unpack_sign]
  exact (apply_ite (·, noFlags) ..).symm

/-- The remainder is no larger than the operand that has the smaller exponent, so its significand fits the format. -/
theorem alignedRem_natAbs_lt (hzb : isZero fmt b = false) : (alignedRem fmt a b).natAbs < 2 ^ fmt.p := by
  obtain ⟨hhalf, -, hle⟩ := balancedRem_bounds (x := alignedMag fmt a (alignExp fmt a b))
    (alignedMag_pos hzb (alignExp fmt a b))
  rw [alignedRem]
  obtain hq | hq := min_choice (unpack fmt a).q (unpack fmt b).q
  · have hx : alignedMag fmt a (alignExp fmt a b) = (unpack fmt a).m := by rw [alignExp, hq, alignedMag_self]
    have hm := unpack_m_lt fmt a
    omega
  · have hy : alignedMag fmt b (alignExp fmt a b) = (unpack fmt b).m := by rw [alignExp, hq, alignedMag_self]
    have hm := unpack_m_lt fmt b
    omega

/-- R210's result is exact. -/
theorem rem_value (ha : isFinite fmt a = true) (hza : isZero fmt a = false) (hb : isFinite fmt b = true)
    (hzb : isZero fmt b = false) :
    ∃ z : Pat fmt, rem fmt a b = (z, noFlags) ∧ isFinite fmt z = true ∧
      valueOf ℚ fmt z = withSign (signOf fmt a) (alignedRem fmt a b * 2 ^ alignExp fmt a b) ∧
      (valueOf ℚ fmt z = 0 → signOf fmt z = signOf fmt a) := by
  rw [rem_of_finite ha hza hb hzb]
  by_cases hr : alignedRem fmt a b = 0
  · obtain ⟨hfin, hsign, hzero, hmag⟩ := zeroPat_spec fmt (signOf fmt a)
    refine ⟨_, rfl, ?_⟩
    rw [if_pos hr, valueOf_eq_withSign, hmag, hr]
    exact ⟨hfin, by simp [withSign], fun _ => hsign⟩
  · have hpos : 0 < (alignedRem fmt a b).natAbs := Int.natAbs_pos.mpr hr
    have hlo : fmt.emin - fmt.t ≤ alignExp fmt a b := le_min (unpack_q_bounds fmt a).1 (unpack_q_bounds fmt b).1
    have hhi : alignExp fmt a b ≤ fmt.emax - fmt.t := (min_le_left ..).trans (unpack_q_le_of_isFinite ha)
    obtain ⟨z, hfin, hsign, hmag⟩ := exists_pattern (signOf fmt a ^^ decide (alignedRem fmt a b < 0)) hpos
      (alignedRem_natAbs_lt hzb) hlo hhi
    refine ⟨z, ?_, hfin, ?_, fun hz => ?_⟩
    · rw [if_neg hr, ← hsign, packExact_of_magOf hfin hpos hmag]
    · rw [valueOf_eq_withSign, hsign, hmag, withSign_intCast_mul]
    · rw [valueOf_eq_zero_iff, isZero_of_magOf hpos hmag] at hz
      cases hz

/-- R210's integer, with the sign of the quotient. -/
def remQuotient (fmt : Fmt) (a b : Pat fmt) : Int := signed (signOf fmt a ^^ signOf fmt b) (alignedQuot fmt a b)

theorem valueOf_sub_remQuotient_mul (a b : Pat fmt) :
    valueOf ℚ fmt a - remQuotient fmt a b * valueOf ℚ fmt b =
      withSign (signOf fmt a) (alignedRem fmt a b * 2 ^ alignExp fmt a b) := by
  have hx := magOf_eq_alignedMag (alignExp_le_left a b)
  have hy := magOf_eq_alignedMag (alignExp_le_right a b)
  have hrem : (alignedRem fmt a b : ℚ) = alignedMag fmt a (alignExp fmt a b) -
      alignedQuot fmt a b * alignedMag fmt b (alignExp fmt a b) := by
    rw [alignedRem, ← sub_nearestQuot_mul, alignedQuot]
    push_cast
    rfl
  rw [valueOf_eq_withSign, valueOf_eq_withSign, hx, hy, hrem, remQuotient]
  cases signOf fmt a <;> cases signOf fmt b <;> simp [withSign, signed] <;> ring

/-- The distance of the quotient from that integer. -/
theorem abs_quotient_sub_remQuotient (hzb : isZero fmt b = false) :
    |valueOf ℚ fmt a / valueOf ℚ fmt b - remQuotient fmt a b| =
      (alignedRem fmt a b).natAbs / alignedMag fmt b (alignExp fmt a b) := by
  have hb : valueOf ℚ fmt b ≠ 0 := by
    rw [Ne, valueOf_eq_zero_iff, hzb]
    exact Bool.false_ne_true
  have hunit : (0 : ℚ) < 2 ^ alignExp fmt a b := by positivity
  rw [div_sub' hb, mul_comm (valueOf ℚ fmt b), valueOf_sub_remQuotient_mul, abs_div, valueOf_eq_withSign b,
    abs_withSign _ ((magOf_pos_iff b).mpr hzb), abs_withSign_eq, magOf_eq_alignedMag (alignExp_le_right a b), abs_mul,
    abs_of_pos hunit, mul_div_mul_right _ _ hunit.ne', Nat.cast_natAbs, Int.cast_abs]

/-- Settles O39: the aligned remainder is `a - n * b` in units of the smaller exponent, and fits the format. -/
theorem remOfFinite : Obligations.RemOfFinite := by
  intro fmt rm exact ops s a b ha hb hzb
  cases hza : isZero fmt a with
  | true =>
    have h0 : valueOf ℚ fmt a = 0 := (valueOf_eq_zero_iff a).mpr hza
    refine ⟨0, a, ?_, fun _ => rfl, ha, ?_, fun _ => rfl,
      answers_of_exec (exec_remInstr ..) (rem_of_isZero hza hb hzb)⟩
    · norm_num [h0]
    · norm_num
  | false =>
    obtain ⟨z, hrem, hfin, hval, hsign⟩ := rem_value ha hza hb hzb
    have hy := alignedMag_pos hzb (alignExp fmt a b)
    have hy' : (0 : ℚ) < alignedMag fmt b (alignExp fmt a b) := Nat.cast_pos.mpr hy
    obtain ⟨hhalf, htie, -⟩ := balancedRem_bounds (x := alignedMag fmt a (alignExp fmt a b)) hy
    refine ⟨remQuotient fmt a b, z, ?_, fun h => ?_, hfin, hval.trans (valueOf_sub_remQuotient_mul a b).symm, hsign,
      answers_of_exec (exec_remInstr ..) hrem⟩
    · rw [abs_quotient_sub_remQuotient hzb, div_le_div_iff₀ hy' two_pos, one_mul, mul_comm]
      exact_mod_cast hhalf
    · rw [abs_quotient_sub_remQuotient hzb, div_eq_div_iff hy'.ne' two_ne_zero, one_mul, mul_comm] at h
      have heven : alignedQuot fmt a b % 2 = 0 := htie (by exact_mod_cast h)
      rw [remQuotient]
      cases signOf fmt a ^^ signOf fmt b <;> simp only [signed] <;> omega

end Rem

end Sys2Proof.Machine
end

section
/-! Comparison (48_compare_classify_roundtoint.md R225, R249). The low `k - 1` bits of a pattern are its exponent over
its fraction, and order the magnitudes, an infinity's above all finite ones. So the kernel's keys order the values, and
the datapath's unsigned comparison of whole patterns orders the keys. -/

namespace Sys2Proof.Machine

section Magnitude
variable {fmt : Fmt} {a b : Pat fmt}

/-- The number in the bits below the sign. -/
def magNum (fmt : Fmt) (a : Pat fmt) : Nat := a.toNat % 2 ^ (fmt.k - 1)

theorem compareKey_eq (fmt : Fmt) (a : Pat fmt) : compareKey fmt a = signed (signOf fmt a) (magNum fmt a) := rfl

theorem magNum_lt (a : Pat fmt) : magNum fmt a < 2 ^ (fmt.k - 1) := Nat.mod_lt _ (Nat.two_pow_pos _)

theorem magNum_eq_fields (a : Pat fmt) : magNum fmt a = expOf fmt a * 2 ^ fmt.t + fracOf fmt a := by
  have hfields := toNat_eq_fields fmt a
  have hf := fracOf_lt fmt a
  have hk : 2 ^ (fmt.k - 1) = 2 ^ fmt.w * 2 ^ fmt.t := by cases fmt <;> rfl
  have he : (expOf fmt a + 1) * 2 ^ fmt.t ≤ 2 ^ fmt.w * 2 ^ fmt.t := Nat.mul_le_mul_right _ (expOf_lt fmt a)
  rw [add_one_mul] at he
  rw [magNum, hfields, Nat.add_assoc, Nat.mul_comm, Nat.mul_add_mod]
  exact Nat.mod_eq_of_lt (by omega)

theorem toNat_eq_magNum (a : Pat fmt) : a.toNat = (signOf fmt a).toNat * 2 ^ (fmt.k - 1) + magNum fmt a := by
  rw [magNum_eq_fields, ← Nat.add_assoc, ← toNat_eq_fields]

/-- The significand adds its hidden bit to the exponent field. -/
theorem magNum_eq_unpack (a : Pat fmt) : magNum fmt a = (expOf fmt a - 1) * 2 ^ fmt.t + (unpack fmt a).m := by
  rw [magNum_eq_fields, unpack]
  split_ifs with he
  · simp [he]
  · obtain ⟨e, he'⟩ := Nat.exists_eq_succ_of_ne_zero he
    rw [he', Nat.succ_sub_one, Nat.succ_mul]
    dsimp only
    omega

theorem magOf_eq_smallest_unit (a : Pat fmt) :
    magOf ℚ fmt a = ((unpack fmt a).m * 2 ^ (expOf fmt a - 1) : Nat) * 2 ^ (fmt.emin - fmt.t) := by
  rw [magOf, unpack_q_eq, add_sub_assoc, zpow_add₀ two_ne_zero, zpow_natCast]
  push_cast
  ring

/-- Only a subnormal's significand, with no binade below it, lacks the leading 1. -/
theorem unpack_m_normalised (a : Pat fmt) : expOf fmt a - 1 = 0 ∨ 2 ^ fmt.t ≤ (unpack fmt a).m := by
  rw [unpack]
  split_ifs with he
  · exact .inl (by omega)
  · exact .inr (Nat.le_add_right ..)

/-- In a larger binade both the bits and the value are larger. -/
theorem lt_of_binade_lt {t e e' m m' : Nat} (hm : m < 2 ^ (t + 1)) (hm' : e' = 0 ∨ 2 ^ t ≤ m') (h : e < e') :
    e * 2 ^ t + m < e' * 2 ^ t + m' ∧ m * 2 ^ e < m' * 2 ^ e' := by
  have hlead : 2 ^ t ≤ m' := hm'.resolve_left (Nat.ne_zero_of_lt h)
  have hbinade : (e + 1) * 2 ^ t ≤ e' * 2 ^ t := Nat.mul_le_mul_right _ h
  rw [pow_succ] at hm
  rw [add_one_mul] at hbinade
  refine ⟨by omega, ?_⟩
  calc m * 2 ^ e < 2 ^ t * 2 * 2 ^ e := Nat.mul_lt_mul_of_pos_right hm (Nat.two_pow_pos e)
    _ = 2 ^ t * 2 ^ (e + 1) := by rw [Nat.mul_assoc, ← pow_succ']
    _ ≤ m' * 2 ^ e' := Nat.mul_le_mul hlead (Nat.pow_le_pow_right Nat.two_pos h)

theorem magNum_lt_iff (a b : Pat fmt) : magNum fmt a < magNum fmt b ↔ magOf ℚ fmt a < magOf ℚ fmt b := by
  have ha := unpack_m_lt fmt a
  have hb := unpack_m_lt fmt b
  rw [magNum_eq_unpack, magNum_eq_unpack, magOf_eq_smallest_unit, magOf_eq_smallest_unit,
    mul_lt_mul_iff_of_pos_right (by positivity), Nat.cast_lt]
  obtain h | h | h := lt_trichotomy (expOf fmt a - 1) (expOf fmt b - 1)
  · obtain ⟨hbits, hvalue⟩ := lt_of_binade_lt ha (unpack_m_normalised b) h
    exact iff_of_true hbits hvalue
  · rw [h, Nat.add_lt_add_iff_left, Nat.mul_lt_mul_right (Nat.two_pow_pos _)]
  · obtain ⟨hbits, hvalue⟩ := lt_of_binade_lt hb (unpack_m_normalised a) h
    exact iff_of_false hbits.not_gt hvalue.not_gt

theorem magNum_eq_zero_iff (a : Pat fmt) : magNum fmt a = 0 ↔ magOf ℚ fmt a = 0 := by
  rw [magOf_eq_zero_iff, magNum_eq_fields, isZero]
  simp

/-- An infinity is above every finite magnitude. -/
theorem magOf_lt_of_isInf (ha : isFinite fmt a = true) (hb : isInf fmt b = true) : magOf ℚ fmt a < magOf ℚ fmt b := by
  have hf := fracOf_lt fmt a
  simp only [isFinite, isInf, decide_eq_true_eq, Bool.and_eq_true, beq_iff_eq] at ha hb
  have hbinade : (expOf fmt a + 1) * 2 ^ fmt.t ≤ fmt.expMax * 2 ^ fmt.t := Nat.mul_le_mul_right _ ha
  rw [add_one_mul] at hbinade
  rw [← magNum_lt_iff, magNum_eq_fields, magNum_eq_fields, hb.1]
  omega

end Magnitude

section Order
variable {fmt : Fmt} {a b : Pat fmt}

/-- Signed magnitudes are ordered as their signs and magnitudes are. -/
theorem signed_lt_signed_iff {u u' : Nat} {x x' : ℚ} (hx : 0 ≤ x) (hx' : 0 ≤ x') (hlt : u < u' ↔ x < x')
    (hgt : u' < u ↔ x' < x) (hzero : u = 0 ↔ x = 0) (hzero' : u' = 0 ↔ x' = 0) (s s' : Bool) :
    signed s u < signed s' u' ↔ withSign s x < withSign s' x' := by
  cases s <;> cases s' <;> simp only [signed, withSign, if_true, if_false, Bool.false_eq_true]
  · rwa [Nat.cast_lt]
  · exact iff_of_false (by omega) (by linarith)
  · have hpos : 0 < u ↔ 0 < x := by rw [Nat.pos_iff_ne_zero, Ne, hzero, hx.lt_iff_ne']
    have hpos' : 0 < u' ↔ 0 < x' := by rw [Nat.pos_iff_ne_zero, Ne, hzero', hx'.lt_iff_ne']
    have hsum : 0 < u + u' ↔ 0 < x + x' := by
      rw [Nat.add_pos_iff_pos_or_pos, hpos, hpos']
      exact ⟨fun h => h.elim (add_pos_of_pos_of_nonneg · hx') (add_pos_of_nonneg_of_pos hx),
        fun h => by by_contra! hle; linarith⟩
    rw [neg_lt_iff_pos_add', neg_lt_iff_pos_add', ← hsum]
    omega
  · rwa [neg_lt_neg_iff, neg_lt_neg_iff, Nat.cast_lt]

theorem compareKey_lt_iff (a b : Pat fmt) : compareKey fmt a < compareKey fmt b ↔ valueOf ℚ fmt a < valueOf ℚ fmt b :=
  signed_lt_signed_iff (magOf_nonneg a) (magOf_nonneg b) (magNum_lt_iff a b) (magNum_lt_iff b a) (magNum_eq_zero_iff a)
    (magNum_eq_zero_iff b) ..

theorem extValue_of_isFinite (ha : isFinite fmt a = true) :
    extValue fmt a = ((valueOf ℚ fmt a : WithTop ℚ) : WithBot (WithTop ℚ)) := by
  simp [extValue, isFinite_excludes ha]

theorem extValue_of_isInf (ha : isInf fmt a = true) :
    extValue fmt a = if signOf fmt a then ⊥ else ((⊤ : WithTop ℚ) : WithBot (WithTop ℚ)) := if_pos ha

theorem isFinite_or_isInf (ha : isNaN fmt a = false) : isFinite fmt a = true ∨ isInf fmt a = true := by
  cases hinf : isInf fmt a with
  | true => exact .inr rfl
  | false => exact .inl (isFinite_of_not_isNaN_not_isInf ha hinf)

theorem abs_valueOf (a : Pat fmt) : |valueOf ℚ fmt a| = magOf ℚ fmt a := by
  rw [valueOf_eq_withSign, abs_withSign_eq, abs_of_nonneg (magOf_nonneg a)]

theorem magOf_eq_of_isInf (ha : isInf fmt a = true) (hb : isInf fmt b = true) : magOf ℚ fmt a = magOf ℚ fmt b := by
  have hnum : magNum fmt a = magNum fmt b := by
    simp only [isInf, Bool.and_eq_true, beq_iff_eq] at ha hb
    rw [magNum_eq_fields, magNum_eq_fields, ha.1, ha.2, hb.1, hb.2]
  exact le_antisymm (not_lt.mp (mt (magNum_lt_iff b a).mpr hnum.not_gt))
    (not_lt.mp (mt (magNum_lt_iff a b).mpr hnum.not_lt))

/-- The significand and the exponent of an infinity put it beyond the finite values, as `extValue` does. -/
theorem extValue_lt_iff (ha : isNaN fmt a = false) (hb : isNaN fmt b = false) :
    extValue fmt a < extValue fmt b ↔ valueOf ℚ fmt a < valueOf ℚ fmt b := by
  obtain ha | ha := isFinite_or_isInf ha <;> obtain hb | hb := isFinite_or_isInf hb
  · rw [extValue_of_isFinite ha, extValue_of_isFinite hb, WithBot.coe_lt_coe, WithTop.coe_lt_coe]
  · obtain ⟨hlo, hhi⟩ := abs_lt.mp ((abs_valueOf a).trans_lt (magOf_lt_of_isInf ha hb))
    rw [extValue_of_isFinite ha, extValue_of_isInf hb, valueOf_eq_withSign b]
    cases signOf fmt b with
    | false => exact iff_of_true (WithBot.coe_lt_coe.mpr (WithTop.coe_lt_top _)) hhi
    | true => exact iff_of_false not_lt_bot hlo.not_gt
  · obtain ⟨hlo, hhi⟩ := abs_lt.mp ((abs_valueOf b).trans_lt (magOf_lt_of_isInf hb ha))
    rw [extValue_of_isInf ha, extValue_of_isFinite hb, valueOf_eq_withSign a]
    cases signOf fmt a with
    | false => exact iff_of_false (WithBot.coe_lt_coe.not.mpr not_top_lt) hhi.not_gt
    | true => exact iff_of_true (WithBot.bot_lt_coe _) hlo
  · have hpos := (magOf_pos_iff b).mpr (isInf_excludes hb).2.1
    rw [extValue_of_isInf ha, extValue_of_isInf hb, valueOf_eq_withSign, valueOf_eq_withSign, magOf_eq_of_isInf ha hb]
    cases signOf fmt a <;> cases signOf fmt b
    · simp
    · exact iff_of_false not_lt_bot (neg_lt_self hpos).not_gt
    · exact iff_of_true (WithBot.bot_lt_coe _) (neg_lt_self hpos)
    · simp

end Order

section Kernel
variable {fmt : Fmt} {a b : Pat fmt} (kind : CompareKind)

/-- The relation a kind of comparison tests, on two integers. -/
def keyRelation (kind : CompareKind) (x y : Int) : Bool :=
  match kind with
  | .eq | .eqSignaling => x = y
  | .le | .leQuiet => x ≤ y
  | .lt | .ltQuiet => x < y

theorem compare_of_not_isNaN (ha : isNaN fmt a = false) (hb : isNaN fmt b = false) :
    compare fmt kind a b = (keyRelation kind (compareKey fmt a) (compareKey fmt b), noFlags) := by
  rw [compare, ha, hb]
  cases kind <;> rfl

theorem compare_of_isNaN (h : isNaN fmt a ∨ isNaN fmt b) :
    compare fmt kind a b =
      (false, nvIf (kind ∈ [CompareKind.le, .lt, .eqSignaling] ∨ isSigNaN fmt a ∨ isSigNaN fmt b)) := by
  have hkind : kind.signaling = true ↔ kind ∈ [CompareKind.le, .lt, .eqSignaling] := by cases kind <;> decide
  rw [compare, if_pos (Bool.or_eq_true_iff.mpr h)]
  refine congrArg (Prod.mk false) (flagIf_NV_eq_nvIf ?_)
  rw [Bool.or_eq_true, Bool.or_eq_true, hkind, or_assoc]

/-- R225's keys order the values. -/
theorem keyRelation_iff_relation (ha : isNaN fmt a = false) (hb : isNaN fmt b = false) :
    keyRelation kind (compareKey fmt a) (compareKey fmt b) = true ↔
      relation kind (extValue fmt a) (extValue fmt b) := by
  have hlt := (compareKey_lt_iff a b).trans (extValue_lt_iff ha hb).symm
  have hgt := (compareKey_lt_iff b a).trans (extValue_lt_iff hb ha).symm
  cases kind <;> simp only [keyRelation, relation, decide_eq_true_eq]
  case lt | ltQuiet => exact hlt
  case le | leQuiet => rw [← not_lt, ← not_lt, hgt]
  case eq | eqSignaling => rw [le_antisymm_iff, le_antisymm_iff, ← not_lt, ← not_lt, hlt, hgt, not_lt, not_lt]

theorem exec_compareInstr (fmt : Fmt) (rm : RoundingMode) (exact : Bool) (ops : Operands) (s : State) :
    exec (compareInstr fmt kind rm exact ops) s =
      s.finishTruth (compare fmt kind (patOf fmt ops.a) (patOf fmt ops.b)) := by
  cases fmt <;> cases kind <;> rfl

/-- A comparison answers 1 or 0 and its kernel's flags. -/
theorem answers_compare {rm : RoundingMode} {exact : Bool} {ops : Operands} {s : State} {c : Bool} {fl : FlagSet}
    (h : compare fmt kind (patOf fmt ops.a) (patOf fmt ops.b) = (c, fl)) :
    Answers (compareInstr fmt kind rm exact ops) s (if c then 1 else 0) fl := by
  rw [Answers, exec_compareInstr, State.finishTruth_eq, State.finishKernel_eq, h]

/-- Settles O41: a NaN takes the kernel's first branch, and the keys order the values of all other patterns. -/
theorem comparisonsOrderValues : Obligations.ComparisonsOrderValues := by
  intro fmt kind rm exact ops s a b
  refine ⟨fun h => answers_compare kind (compare_of_isNaN kind h), fun ⟨ha, hb⟩ => ?_⟩
  rw [Bool.not_eq_true] at ha hb
  have hcmp := compare_of_not_isNaN kind ha hb
  rw [← keyRelation_iff_relation kind ha hb]
  refine ⟨fun h => ?_, fun h => ?_⟩
  · rw [h] at hcmp
    exact answers_compare kind hcmp
  · rw [Bool.not_eq_true] at h
    rw [h] at hcmp
    exact answers_compare kind hcmp

end Kernel

section Datapath
variable {fmt : Fmt} {a b : Pat fmt}

/-- R249's test for two zeros: nothing is left when the sign bits are shifted out. -/
theorem bothZero_iff (a b : Pat fmt) : ((a ||| b) <<< 1 == 0#fmt.k) = true ↔ magNum fmt a = 0 ∧ magNum fmt b = 0 := by
  have hk : 2 ^ fmt.k = 2 * 2 ^ (fmt.k - 1) := by cases fmt <;> rfl
  rw [beq_iff_eq, ← BitVec.toNat_inj, BitVec.toNat_shiftLeft, BitVec.toNat_or, BitVec.toNat_ofNat, Nat.zero_mod,
    Nat.shiftLeft_eq, pow_one, Nat.mul_comm, hk, Nat.mul_mod_mul_left, Nat.or_mod_two_pow, magNum, magNum]
  simp

/-- Two zeros have one key, and other patterns of unlike signs have unlike keys. -/
theorem compareKey_eq_iff (a b : Pat fmt) :
    compareKey fmt a = compareKey fmt b ↔ a.toNat = b.toNat ∨ magNum fmt a = 0 ∧ magNum fmt b = 0 := by
  have hnumA := toNat_eq_magNum a
  have hnumB := toNat_eq_magNum b
  have hltA := magNum_lt a
  have hltB := magNum_lt b
  rw [compareKey_eq, compareKey_eq]
  cases hsa : signOf fmt a <;> cases hsb : signOf fmt b <;>
    simp only [hsa, hsb, signed, Bool.toNat_true, Bool.toNat_false, if_true, if_false, Bool.false_eq_true]
      at hnumA hnumB ⊢ <;>
    omega

/-- Under one sign the unsigned order of the patterns is the order of the keys, turned round for negative numbers; under
unlike signs the negative pattern has the smaller key, unless both are zeros. -/
theorem compareKey_lt_iff_toNat_lt (a b : Pat fmt) :
    compareKey fmt a < compareKey fmt b ↔
      if signOf fmt a = signOf fmt b then (if signOf fmt a then b.toNat < a.toNat else a.toNat < b.toNat)
      else signOf fmt a = true ∧ ¬ (magNum fmt a = 0 ∧ magNum fmt b = 0) := by
  have hnumA := toNat_eq_magNum a
  have hnumB := toNat_eq_magNum b
  rw [compareKey_eq, compareKey_eq]
  cases hsa : signOf fmt a <;> cases hsb : signOf fmt b <;>
    simp only [hsa, hsb, signed, Bool.toNat_true, Bool.toNat_false, if_true, if_false, Bool.false_eq_true,
      reduceCtorEq, true_and, false_and, iff_false, not_lt] at hnumA hnumB ⊢ <;>
    omega

/-- Settles O55: equality, and the order under like and unlike signs. -/
theorem compareDatapathAgrees : Obligations.CompareDatapathAgrees := by
  intro fmt kind a b ha hb
  have heq := compareKey_eq_iff a b
  have hlt := compareKey_lt_iff_toNat_lt a b
  have hgt := compareKey_lt_iff_toNat_lt b a
  have hpat : (a == b) = decide (a.toNat = b.toNat) := by simp only [Bool.beq_eq_decide_eq, BitVec.toNat_inj]
  have hzero : ((a ||| b) <<< 1 == 0#fmt.k) = decide (magNum fmt a = 0 ∧ magNum fmt b = 0) := by
    rw [Bool.eq_iff_iff, bothZero_iff, decide_eq_true_iff]
  have hkeys : keyRelation kind (compareKey fmt a) (compareKey fmt b) = compareDatapath fmt kind a b := by
    rw [Bool.eq_iff_iff]
    cases kind <;> simp only [keyRelation, compareDatapath, hzero, bne, hpat, decide_eq_true_eq]
    case eq | eqSignaling => simp [heq]
    case lt | ltQuiet =>
      rw [hlt]
      cases signOf fmt a <;> cases signOf fmt b <;> simp [BitVec.lt_def] <;> omega
    case le | leQuiet =>
      rw [← not_lt, hgt]
      cases signOf fmt a <;> cases signOf fmt b <;> simp [BitVec.lt_def] <;> omega
  rw [compare_of_not_isNaN kind ha hb, hkeys]
  rfl

end Datapath

end Sys2Proof.Machine
end

section
/-! Classification (48_compare_classify_roundtoint.md R238): the bit numbers count the classes from negative infinity to
quiet NaN. -/

namespace Sys2Proof.Machine

/-- The class whose bit the kernel sets holds the pattern. -/
theorem exists_inClass (fmt : Fmt) (a : Pat fmt) : ∃ k : Fin 10, k.val = classBit fmt a ∧ inClass fmt a k = true := by
  have hle := expOf_le_expMax fmt a
  unfold classBit
  dsimp only
  split_ifs with hmax hf hs hsig hzero hf hs hs hs
  · exact ⟨0, rfl, by simp [inClass, isInf, hmax, hf, hs]⟩
  · exact ⟨7, rfl, by simp [inClass, isInf, hmax, hf, hs]⟩
  · exact ⟨8, rfl, hsig⟩
  · have hkind := (isNaN_sig_or_quiet fmt a).1
    rw [show isNaN fmt a = true by simp [isNaN, hmax, hf], (Bool.not_eq_true _).mp hsig, Bool.false_or] at hkind
    exact ⟨9, rfl, hkind.symm⟩
  · exact ⟨3, rfl, by simp [inClass, isZero, hzero, hf, hs]⟩
  · exact ⟨4, rfl, by simp [inClass, isZero, hzero, hf, hs]⟩
  · exact ⟨2, rfl, by simp [inClass, isSubnormal, hzero, hf, hs]⟩
  · exact ⟨5, rfl, by simp [inClass, isSubnormal, hzero, hf, hs]⟩
  · exact ⟨1, rfl, by simp [inClass, isNormal, hs, hle.lt_of_ne hmax, Nat.pos_of_ne_zero hzero]⟩
  · exact ⟨6, rfl, by simp [inClass, isNormal, hs, hle.lt_of_ne hmax, Nat.pos_of_ne_zero hzero]⟩

theorem classify_config (fmt : Fmt) (a : Pat fmt) : classify config fmt a = BitVec.ofNat 10 (2 ^ classBit fmt a) :=
  BitVec.or_zero

theorem exec_classifyInstr (fmt : Fmt) (rm : RoundingMode) (exact : Bool) (ops : Operands) (s : State) :
    exec (classifyInstr fmt rm exact ops) s = s.finishPattern (classify config fmt (patOf fmt ops.a), noFlags) := by
  cases fmt <;> rfl

/-- Settles O42: the mask is the power of two of the class. -/
theorem classifyReportsTheClass : Obligations.ClassifyReportsTheClass := by
  intro fmt rm exact ops s
  obtain ⟨k, hk, hclass⟩ := exists_inClass fmt (patOf fmt ops.a)
  refine ⟨_, k, answers_of_exec (exec_classifyInstr ..) rfl, hclass, fun j => ?_⟩
  have hlt : k.val < 64 := k.isLt.trans (by decide)
  rw [classify_config, ← hk, zext, BitVec.getLsbD_setWidth, BitVec.getLsbD_ofNat, Nat.testBit_two_pow]
  by_cases hj : j = k.val
  · simp [hj, hlt, k.isLt]
  · simp [hj, Ne.symm hj]

end Sys2Proof.Machine
end

section
/-! Rounding to an integer of the same format (48_compare_classify_roundtoint.md R241, R245). A rounded magnitude is the
operand's own, when that has no fraction, or at most its significand, so it is the value of a pattern; and an integer is
its own rounding, so that pattern is a fixed point. -/

namespace Sys2Proof.Machine

section Integers
variable {fmt : Fmt} {a : Pat fmt} {n : Nat}

/-- Integers up to `2^p` are values of patterns. -/
theorem exists_pattern_natCast (s : Bool) (hn : n ≤ 2 ^ fmt.p) :
    ∃ z : Pat fmt, isFinite fmt z = true ∧ signOf fmt z = s ∧ magOf ℚ fmt z = n := by
  have hrange : fmt.emin - fmt.t ≤ 0 ∧ 1 ≤ fmt.emax - fmt.t ∧ 2 ^ fmt.t < 2 ^ fmt.p := by cases fmt <;> decide
  obtain ⟨hlo, hhi, hp⟩ := hrange
  obtain rfl | h0 := n.eq_zero_or_pos
  · obtain ⟨hfin, hsign, -, hmag⟩ := zeroPat_spec fmt s
    exact ⟨_, hfin, hsign, by rw [hmag, Nat.cast_zero]⟩
  · obtain hlt | rfl := hn.lt_or_eq
    · obtain ⟨z, hfin, hsign, hmag⟩ := exists_pattern s h0 hlt hlo (zero_le_one.trans hhi)
      exact ⟨z, hfin, hsign, by rw [hmag, zpow_zero, mul_one]⟩
    · obtain ⟨z, hfin, hsign, hmag⟩ := exists_pattern s (Nat.two_pow_pos fmt.t) hp (hlo.trans zero_le_one) hhi
      refine ⟨z, hfin, hsign, ?_⟩
      rw [hmag, Fmt.p, pow_succ]
      push_cast
      ring

theorem rndCount_natCast (s : Bool) (rm : RoundingMode) (n : Nat) : rndCount s rm (n : ℚ) 0 = n := by
  have hx := roundsFrom_natCast (K := ℚ) n
  rw [← div_one (n : ℚ), ← zpow_zero (2 : ℚ)] at hx
  rw [hx.rndCount_eq, roundQuot_zero]

/-- An integer is its own rounding. -/
theorem roundedMag_of_natCast (h : magOf ℚ fmt a = n) (rm : RoundingMode) : roundedMag fmt a rm = n := by
  rw [roundedMag, h, rndCount_natCast]

/-- What R138 makes of the magnitude of a pattern. -/
def roundedNat (fmt : Fmt) (a : Pat fmt) (rm : RoundingMode) : Nat :=
  (roundIntMag config (signOf fmt a) (unpack fmt a).m (unpack fmt a).q rm).1

theorem cast_roundedNat (a : Pat fmt) (rm : RoundingMode) : (roundedNat fmt a rm : Int) = roundedMag fmt a rm :=
  (roundIntMagRoundsToInteger ..).1

theorem roundIntMag_unpack (a : Pat fmt) (rm : RoundingMode) :
    roundIntMag config (signOf fmt a) (unpack fmt a).m (unpack fmt a).q rm =
      (roundedNat fmt a rm, decide ((roundedMag fmt a rm : ℚ) ≠ magOf ℚ fmt a)) := by
  refine Prod.ext rfl (Bool.eq_iff_iff.mpr ?_)
  rw [(roundIntMagRoundsToInteger ..).2, decide_eq_true_iff, ← cast_roundedNat, Int.cast_natCast]
  rfl

/-- An integer part that has a fraction below it is smaller than the significand. -/
theorem roundedNat_le_of_q_neg (hq : (unpack fmt a).q < 0) (rm : RoundingMode) : roundedNat fmt a rm ≤ 2 ^ fmt.p := by
  obtain ⟨n, r, h, hx, heq⟩ := roundIntMag_eq (signOf fmt a) (unpack fmt a).m (unpack fmt a).q rm
  have hle : (n : ℚ) ≤ (unpack fmt a).m * 2 ^ (unpack fmt a).q := by
    have hfloor := Int.floor_le ((unpack fmt a).m * (2 : ℚ) ^ (unpack fmt a).q)
    rwa [hx.floor_eq, Int.cast_natCast] at hfloor
  have hm : (n : ℚ) ≤ (unpack fmt a).m :=
    hle.trans (mul_le_of_le_one_right (Nat.cast_nonneg _) (zpow_le_one_of_nonpos₀ one_le_two hq.le))
  have hlt := (Nat.cast_le.mp hm).trans_lt (unpack_m_lt fmt a)
  rw [roundedNat, heq]
  exact (roundQuot_bounds ..).2.trans hlt

/-- Without a fraction the rounded magnitude is the operand's own. -/
theorem roundedNat_of_q_nonneg (hq : 0 ≤ (unpack fmt a).q) (rm : RoundingMode) :
    magOf ℚ fmt a = roundedNat fmt a rm := by
  rw [roundedNat, roundIntMag, if_pos hq, Nat.shiftLeft_eq, magOf]
  push_cast
  rw [← zpow_natCast, Int.toNat_of_nonneg hq]

theorem exists_pattern_roundedNat (ha : isFinite fmt a = true) (rm : RoundingMode) :
    ∃ z : Pat fmt, isFinite fmt z = true ∧ signOf fmt z = signOf fmt a ∧ magOf ℚ fmt z = roundedNat fmt a rm := by
  obtain hq | hq := le_or_gt 0 (unpack fmt a).q
  · exact ⟨a, ha, rfl, roundedNat_of_q_nonneg hq rm⟩
  · exact exists_pattern_natCast _ (roundedNat_le_of_q_neg hq rm)

end Integers

section RoundToInt
variable {fmt : Fmt} {a : Pat fmt} (rm : RoundingMode) (exact : Bool)

theorem roundToInt_of_isInf (h : isInf fmt a = true) : roundToInt config fmt a rm exact = (a, noFlags) := by
  simp [roundToInt, isInf_excludes h, h]

theorem roundToInt_of_isZero (h : isZero fmt a = true) : roundToInt config fmt a rm exact = (a, noFlags) := by
  simp [roundToInt, isZero_excludes h, h]

theorem roundToInt_of_finite (ha : isFinite fmt a = true) (hz : isZero fmt a = false) :
    roundToInt config fmt a rm exact =
      (if roundedNat fmt a rm = 0 then zeroPat fmt (signOf fmt a)
        else packExact fmt (signOf fmt a) (roundedNat fmt a rm) 0,
        nxIf (exact = true ∧ (roundedMag fmt a rm : ℚ) ≠ magOf ℚ fmt a)) := by
  have hflag : flagIf (decide ((roundedMag fmt a rm : ℚ) ≠ magOf ℚ fmt a) && exact) NX =
      nxIf (exact = true ∧ (roundedMag fmt a rm : ℚ) ≠ magOf ℚ fmt a) := by
    cases exact <;> simp [flagIf, nxIf] <;> rfl
  simp only [roundToInt, isFinite_excludes ha, hz, Bool.or_self, Bool.false_eq_true, if_false, unpack_sign,
    roundIntMag_unpack, hflag]
  exact (apply_ite (·, _) ..).symm

/-- A pattern that is an integer is returned unchanged. -/
theorem roundToInt_of_natCast {n : Nat} (ha : isFinite fmt a = true) (h : magOf ℚ fmt a = n) :
    roundToInt config fmt a rm exact = (a, noFlags) := by
  cases hz : isZero fmt a with
  | true => exact roundToInt_of_isZero rm exact hz
  | false =>
    have hmag := roundedMag_of_natCast h rm
    have hnat : roundedNat fmt a rm = n := by exact_mod_cast (cast_roundedNat a rm).trans hmag
    have hpos : 0 < n := by
      rw [← Nat.cast_pos (α := ℚ), ← h]
      exact (magOf_pos_iff a).mpr hz
    have hpack : packExact fmt (signOf fmt a) n 0 = a :=
      packExact_of_magOf ha hpos (by rw [h, zpow_zero, mul_one])
    rw [roundToInt_of_finite rm exact ha hz, hnat, if_neg hpos.ne', hpack, hmag, h]
    simp [nxIf, noFlags]

theorem roundToInt_value (ha : isFinite fmt a = true) :
    ∃ z : Pat fmt, isFinite fmt z = true ∧ signOf fmt z = signOf fmt a ∧ magOf ℚ fmt z = roundedNat fmt a rm ∧
      roundToInt config fmt a rm exact = (z, nxIf (exact = true ∧ (roundedMag fmt a rm : ℚ) ≠ magOf ℚ fmt a)) := by
  cases hz : isZero fmt a with
  | true =>
    have hmag : magOf ℚ fmt a = (0 : Nat) := by rw [(magOf_eq_zero_iff a).mpr hz, Nat.cast_zero]
    have hround := roundedMag_of_natCast hmag rm
    have hnat : roundedNat fmt a rm = 0 := by exact_mod_cast (cast_roundedNat a rm).trans hround
    refine ⟨a, ha, rfl, by rw [hmag, hnat], ?_⟩
    rw [roundToInt_of_isZero rm exact hz, hround, hmag]
    simp [nxIf, noFlags]
  | false =>
    rw [roundToInt_of_finite rm exact ha hz]
    obtain ⟨z, hfin, hsign, hmag⟩ := exists_pattern_roundedNat ha rm
    by_cases h0 : roundedNat fmt a rm = 0
    · obtain ⟨hfin, hsign, -, hmag⟩ := zeroPat_spec fmt (signOf fmt a)
      exact ⟨_, hfin, hsign, by rw [hmag, h0, Nat.cast_zero], by rw [if_pos h0]⟩
    · have hpack : packExact fmt (signOf fmt a) (roundedNat fmt a rm) 0 = z :=
        hsign ▸ packExact_of_magOf hfin (Nat.pos_of_ne_zero h0) (by rw [hmag, zpow_zero, mul_one])
      exact ⟨z, hfin, hsign, hmag, by rw [if_neg h0, hpack]⟩

/-- Settles O43: the rounded magnitude is the value of a pattern, which the kernel packs. -/
theorem roundToIntOfNonNaN : Obligations.RoundToIntOfNonNaN := by
  intro fmt rm exact ops s a
  refine ⟨fun h => answers_of_exec (exec_roundToIntInstr ..) (roundToInt_of_isInf rm exact h), fun ha => ?_⟩
  obtain ⟨z, hfin, hsign, hmag, hround⟩ := roundToInt_value rm exact ha
  refine ⟨z, hfin, hsign, ?_, answers_of_exec (exec_roundToIntInstr ..) hround⟩
  rw [hmag, ← cast_roundedNat, Int.cast_natCast]

theorem cnan_classes (fmt : Fmt) : isNaN fmt (cnan fmt) = true ∧ isSigNaN fmt (cnan fmt) = false := by
  cases fmt <;> decide

/-- The result of rounding to an integer is a fixed point: a quiet NaN, an infinity, or an integer. -/
theorem roundToInt_idempotent (a : Pat fmt) :
    ∃ z fl, roundToInt config fmt a rm exact = (z, fl) ∧ roundToInt config fmt z rm exact = (z, noFlags) := by
  cases hnan : isNaN fmt a with
  | true =>
    obtain ⟨hcnan, hquiet⟩ := cnan_classes fmt
    refine ⟨_, _, roundToInt_of_isNaN rm config exact hnan, ?_⟩
    rw [roundToInt_of_isNaN rm config exact hcnan, hquiet]
    rfl
  | false =>
    obtain ha | ha := isFinite_or_isInf hnan
    · obtain ⟨z, hfin, -, hmag, hround⟩ := roundToInt_value rm exact ha
      exact ⟨z, _, hround, roundToInt_of_natCast rm exact hfin hmag⟩
    · exact ⟨a, _, roundToInt_of_isInf rm exact ha, roundToInt_of_isInf rm exact ha⟩

/-- From the exponent field `bias + p - 1` on the significand has no fraction bits. -/
theorem unpack_q_nonneg (h : fmt.bias + fmt.p - 1 ≤ expOf fmt a) : 0 ≤ (unpack fmt a).q := by
  have hpos : 0 < fmt.bias := (bias_bounds fmt).1
  rw [unpack_q_eq, Fmt.emin]
  rw [Fmt.p] at h
  omega

theorem answers_roundToInt_zext {z : Pat fmt} {fl : FlagSet} {b c : Word} {s : State}
    (h : roundToInt config fmt a rm exact = (z, fl)) :
    Answers (roundToIntInstr fmt rm exact ⟨zext a, b, c⟩) s (zext z) fl :=
  answers_of_exec (exec_roundToIntInstr ..)
    ((congrArg (roundToInt config fmt · rm exact) (patOf_setWidth ..)).trans h)

/-- Settles O44: rounding an integer changes nothing, and a large exponent leaves no fraction bits. -/
theorem roundToIntIdempotent : Obligations.RoundToIntIdempotent := by
  intro fmt a rm exact b c s
  obtain ⟨z, fl, hround, hfix⟩ := roundToInt_idempotent rm exact a
  refine ⟨⟨z, fl, answers_roundToInt_zext rm exact hround, answers_roundToInt_zext rm exact hfix⟩,
    fun ⟨he, hnan⟩ => ?_⟩
  obtain ha | ha := isFinite_or_isInf ((Bool.not_eq_true _).mp hnan)
  · exact answers_roundToInt_zext rm exact
      (roundToInt_of_natCast rm exact ha (roundedNat_of_q_nonneg (unpack_q_nonneg he) rm))
  · exact answers_roundToInt_zext rm exact (roundToInt_of_isInf rm exact ha)

end RoundToInt

end Sys2Proof.Machine
end

section
/-! Conversions between floats and integers (49_convert.md R251, R260, R272, R276). The range test and the flag of a
conversion to an integer are those of the rounded value; a conversion from an integer rounds the integer itself, which
changes nothing up to magnitude `2^p`. -/

namespace Sys2Proof.Machine

section ToInt
variable {fmt : Fmt} {a : Pat fmt} {ity : IntFmt} (rm : RoundingMode) (exact : Bool)

/-- The value of a finite pattern rounded to an integer. -/
def roundedInt (fmt : Fmt) (a : Pat fmt) (rm : RoundingMode) : Int :=
  if signOf fmt a then -roundedMag fmt a rm else roundedMag fmt a rm

theorem cast_roundedInt (a : Pat fmt) (rm : RoundingMode) :
    (roundedInt fmt a rm : ℚ) = withSign (signOf fmt a) (roundedMag fmt a rm) := by
  rw [roundedInt]
  cases signOf fmt a <;> simp [withSign]

theorem withSign_inj {s : Bool} {x y : ℚ} : withSign s x = withSign s y ↔ x = y := by
  cases s <;> simp [withSign]

/-- Rounding changes the value exactly when it changes the magnitude. -/
theorem roundedInt_eq_valueOf_iff (a : Pat fmt) (rm : RoundingMode) :
    (roundedInt fmt a rm : ℚ) = valueOf ℚ fmt a ↔ (roundedMag fmt a rm : ℚ) = magOf ℚ fmt a := by
  rw [cast_roundedInt, valueOf_eq_withSign, withSign_inj]

/-- A pattern that is an integer is its own rounding. -/
theorem roundedInt_of_intCast {v : Int} (h : valueOf ℚ fmt a = v) (rm : RoundingMode) : roundedInt fmt a rm = v := by
  have hmag : magOf ℚ fmt a = v.natAbs := by rw [← abs_valueOf, h, Nat.cast_natAbs, Int.cast_abs]
  have hcast : (roundedInt fmt a rm : ℚ) = v := by
    rw [← h, roundedInt_eq_valueOf_iff, roundedMag_of_natCast hmag, hmag, Int.cast_natCast]
  exact_mod_cast hcast

theorem floatToInt_of_isNaN (h : isNaN fmt a = true) :
    floatToInt config fmt ity a rm exact = (intPat ity ity.max, NV) := if_pos h

theorem floatToInt_of_isInf (h : isInf fmt a = true) :
    floatToInt config fmt ity a rm exact = (if signOf fmt a then intPat ity ity.min else intPat ity ity.max, NV) := by
  simp only [floatToInt, isInf_excludes h, h, Bool.false_eq_true, if_false, if_true, overflowSentinel]

/-- Zero is in the range of every integer format. -/
theorem saturate_zero (ity : IntFmt) : saturate ity 0 false exact = (0, noFlags) := by
  cases ity <;> rfl

/-- R251 on finite operands, zeros included. -/
theorem floatToInt_of_finite (ha : isFinite fmt a = true) :
    floatToInt config fmt ity a rm exact =
      saturate ity (roundedInt fmt a rm) (decide ((roundedInt fmt a rm : ℚ) ≠ valueOf ℚ fmt a)) exact := by
  cases hz : isZero fmt a with
  | true =>
    have hvalue : valueOf ℚ fmt a = (0 : Int) := by rw [(valueOf_eq_zero_iff a).mpr hz, Int.cast_zero]
    rw [roundedInt_of_intCast hvalue, hvalue, decide_eq_false (not_not.mpr rfl), saturate_zero]
    simp only [floatToInt, isZero_excludes hz, hz, Bool.false_eq_true, if_false, if_true]
  | false =>
    have hsigned : signed (signOf fmt a) (roundedNat fmt a rm) = roundedInt fmt a rm := by
      rw [roundedInt, ← cast_roundedNat]
      rfl
    simp only [floatToInt, isFinite_excludes ha, hz, Bool.false_eq_true, if_false, unpack_sign, roundIntMag_unpack,
      hsigned, Ne, roundedInt_eq_valueOf_iff]

theorem exec_toIntInstr (fmt : Fmt) (ity : IntFmt) (ops : Operands) (s : State) :
    exec (toIntInstr fmt ity rm exact ops) s =
      s.finishPattern (floatToInt config fmt ity (patOf fmt ops.a) rm exact) := by
  cases fmt <;> cases ity <;> rfl

theorem zext_intPat_max (ity : IntFmt) :
    zext (intPat ity ity.max) = nanTable ity ∧ zext (intPat ity ity.max) = overflowIntTable ity false := by
  cases ity <;> decide

theorem zext_intPat_min (ity : IntFmt) : zext (intPat ity ity.min) = overflowIntTable ity true := by
  cases ity <;> decide

theorem intFmt_min_le_max (ity : IntFmt) : ity.min ≤ ity.max := by cases ity <;> decide

/-- R251's three results of a rounded integer. -/
theorem saturate_of_lt_min {v : Int} {inexact : Bool} (h : v < ity.min) :
    saturate ity v inexact exact = (intPat ity ity.min, NV) := if_pos h

theorem saturate_of_max_lt {v : Int} {inexact : Bool} (h : ity.max < v) :
    saturate ity v inexact exact = (intPat ity ity.max, NV) := by
  rw [saturate, if_neg ((intFmt_min_le_max ity).trans h.le).not_gt, if_pos h]

theorem saturate_of_mem {v : Int} {p : Prop} [Decidable p] (h : ity.min ≤ v ∧ v ≤ ity.max) :
    saturate ity v (decide p) exact = (intPat ity v, nxIf (exact = true ∧ p)) := by
  rw [saturate, if_neg h.1.not_gt, if_neg h.2.not_gt]
  by_cases hp : p <;> cases exact <;> simp [hp, flagIf, nxIf] <;> rfl

/-- Settles O45: a NaN and an infinity take the kernel's first branches, and a finite operand is saturated after it is
rounded. -/
theorem floatToInteger : Obligations.FloatToInteger := by
  intro fmt ity rm exact ops s a n
  have hfinite (ha : isFinite fmt a = true) {z : BitVec ity.width} {fl : FlagSet}
      (h : saturate ity n (decide ((n : ℚ) ≠ valueOf ℚ fmt a)) exact = (z, fl)) :
      Answers (toIntInstr fmt ity rm exact ops) s (zext z) fl :=
    answers_of_exec (exec_toIntInstr ..) ((floatToInt_of_finite rm exact ha).trans h)
  refine ⟨fun h => ?_, fun h => ?_, fun ha => ⟨fun h => ?_, fun h => ?_, fun h => ?_⟩⟩
  · rw [← (zext_intPat_max ity).1]
    exact answers_of_exec (exec_toIntInstr ..) (floatToInt_of_isNaN rm exact h)
  · have hans := answers_of_exec (s := s) (exec_toIntInstr rm exact fmt ity ops s) (floatToInt_of_isInf rm exact h)
    cases hs : signOf fmt a with
    | true =>
      rw [← zext_intPat_min]
      rwa [hs] at hans
    | false =>
      rw [← (zext_intPat_max ity).2]
      rwa [hs] at hans
  · rw [← zext_intPat_min]
    exact hfinite ha (saturate_of_lt_min exact h)
  · rw [← (zext_intPat_max ity).2]
    exact hfinite ha (saturate_of_max_lt exact h)
  · exact hfinite ha (saturate_of_mem exact h)

end ToInt

section FromInt
variable {fmt : Fmt} {ity : IntFmt} {x : BitVec ity.width} (rm : RoundingMode) (tm : Tininess)

theorem intToFloat_of_zero (h : intVal ity x = 0) :
    intToFloat fmt ity x rm tm = (zeroPat fmt false, noFlags) := if_pos h

theorem intToFloat_of_ne_zero (h : intVal ity x ≠ 0) :
    intToFloat fmt ity x rm tm =
      roundExact fmt (decide (intVal ity x < 0)) (intVal ity x).natAbs false 0 rm tm := if_neg h

theorem exec_fromIntInstr (fmt : Fmt) (ity : IntFmt) (exact : Bool) (ops : Operands) (s : State) :
    exec (fromIntInstr fmt ity rm exact ops) s =
      s.finishPattern (intToFloat fmt ity (ops.a.setWidth ity.width) rm s.tininess) := by
  cases fmt <;> cases ity <;> rfl

theorem zext_zeroPat (fmt : Fmt) : zext (zeroPat fmt false) = 0 := by cases fmt <;> decide

/-- Settles O46: the kernel hands the engine the sign and the magnitude of the integer. -/
theorem integerToFloat : Obligations.IntegerToFloat := by
  intro fmt ity rm exact ops s v
  refine ⟨fun h => ?_, fun h => ?_⟩
  · rw [← zext_zeroPat fmt]
    exact answers_of_exec (exec_fromIntInstr ..) (intToFloat_of_zero rm s.tininess h)
  · have hround := (engineRounds_roundExact_int (fmt := fmt) h 0).correctlyRounded rm s.tininess
    rw [zpow_zero, mul_one] at hround
    simp only [Int.cast_lt_zero] at hround
    exact ⟨_, hround, answers_of_exec (exec_fromIntInstr ..) (intToFloat_of_ne_zero rm s.tininess h)⟩

/-- An integer of magnitude at most `2^p` is the value of the pattern it is converted to. -/
theorem intToFloat_of_natAbs_le (h : (intVal ity x).natAbs ≤ 2 ^ fmt.p) :
    ∃ z : Pat fmt, isFinite fmt z = true ∧ valueOf ℚ fmt z = intVal ity x ∧
      ∀ rm tm, intToFloat fmt ity x rm tm = (z, noFlags) := by
  by_cases h0 : intVal ity x = 0
  · obtain ⟨hfin, -, hzero, -⟩ := zeroPat_spec fmt false
    refine ⟨_, hfin, ?_, fun rm tm => intToFloat_of_zero rm tm h0⟩
    rw [(valueOf_eq_zero_iff _).mpr hzero, h0, Int.cast_zero]
  · obtain ⟨z, hfin, hsign, hmag⟩ := exists_pattern_natCast (decide (intVal ity x < 0)) h
    refine ⟨z, hfin, ?_, fun rm tm => ?_⟩
    · have hvalue := withSign_intCast_mul false (intVal ity x) 1
      rw [mul_one, mul_one, Bool.false_xor] at hvalue
      rw [valueOf_eq_withSign, hsign, hmag, ← hvalue]
      rfl
    · rw [intToFloat_of_ne_zero rm tm h0, ← hsign]
      exact roundExact_of_magOf hfin (Int.natAbs_pos.mpr h0) (by rw [hmag, zpow_zero, mul_one]) rm tm

/-- Settles O47: 32 bits are fewer than the 53 of a double's significand. -/
theorem int32ToDoubleIsExact : Obligations.Int32ToDoubleIsExact := by
  intro ity rm exact ops s hw
  have hlt := (natAbs_intVal_lt ity (ops.a.setWidth ity.width)).trans_eq (congrArg (2 ^ ·) hw)
  obtain ⟨z, hfin, hvalue, hconv⟩ := intToFloat_of_natAbs_le (fmt := .f64) (hlt.le.trans (by decide))
  exact ⟨z, hfin, hvalue, answers_of_exec (exec_fromIntInstr ..) (hconv ..)⟩

theorem intVal_mem_range (ity : IntFmt) (x : BitVec ity.width) : ity.min ≤ intVal ity x ∧ intVal ity x ≤ ity.max := by
  have hx := x.isLt
  cases ity <;> simp only [IntFmt.width, intVal, IntFmt.min, IntFmt.max, BitVec.toInt_eq_toNat_cond] at hx ⊢
  case ui32 | ui64 => omega
  case i32 | i64 => split <;> omega

theorem intPat_intVal (ity : IntFmt) (x : BitVec ity.width) : intPat ity (intVal ity x) = x := by
  cases ity with
  | ui32 | ui64 => simp [intPat, intVal]
  | i32 | i64 => exact BitVec.ofInt_toInt

/-- Reading back the field an integer pattern was put into. -/
theorem setWidth_zext (ity : IntFmt) (x : BitVec ity.width) : (zext x).setWidth ity.width = x := by
  cases ity with
  | ui32 | i32 => exact patOf_setWidth .f32 x
  | ui64 | i64 => exact patOf_setWidth .f64 x

/-- Settles O51: the pattern has the value of the integer, which is its own rounding and in range. -/
theorem smallIntegerRoundTrip : Obligations.SmallIntegerRoundTrip := by
  intro fmt ity x rm rm' exact b c s hle
  obtain ⟨z, hfin, hvalue, hconv⟩ := intToFloat_of_natAbs_le hle
  have hback : floatToInt config fmt ity z rm' exact = (x, 0#5) := by
    rw [floatToInt_of_finite rm' exact hfin, roundedInt_of_intCast hvalue, hvalue, decide_eq_false (not_not.mpr rfl),
      ← decide_false, saturate_of_mem exact (intVal_mem_range ity x), intPat_intVal]
    simp [nxIf]
  refine ⟨zext z, answers_of_exec (exec_fromIntInstr ..) ?_, answers_of_exec (exec_toIntInstr ..) ?_⟩
  · dsimp only
    rw [setWidth_zext]
    exact hconv ..
  · exact (congrArg (floatToInt config fmt ity · rm' exact) (patOf_setWidth ..)).trans hback

/-- Settles O60. Up to `k - 1` bits the datapath normalises, which is the bridge of R136; above that it shifts with jam,
as the bridge does. -/
theorem intToFloatDatapathAgrees : Obligations.IntToFloatDatapathAgrees := by
  intro fmt ity x rm tm h
  have hpos := Int.natAbs_pos.mpr h
  have hw : ity.width ≤ 64 := by cases ity <;> decide
  have hlt := (natAbs_intVal_lt ity x).trans_le (Nat.pow_le_pow_right Nat.two_pos hw)
  rw [intToFloat_of_ne_zero rm tm h, intToFloatDatapath]
  generalize (intVal ity x).natAbs = m at hpos hlt ⊢
  split_ifs with hlen
  · have hm : m < 2 ^ (fmt.k - 1) := (lt_two_pow_bitlen m).trans_le (Nat.pow_le_pow_right Nat.two_pos hlen)
    have hexp : (fmt.bias + fmt.k - 3 : Int) - fmt.bias - (fmt.k - 3) = 0 := by ring
    rw [normRoundPackIsRoundExact _ _ _ _ _ _ hpos hm, hexp]
  · obtain ⟨d, hd⟩ : ∃ d, bitlen m = d + (fmt.k - 1) := ⟨bitlen m - (fmt.k - 1), by omega⟩
    have hexp : bridgeExp fmt m 0 = fmt.bias + fmt.k - 3 + d := by
      rw [bridgeExp, hd]
      push_cast
      ring
    rw [roundExact_eq_roundPack_bridge, bridgeSig_of_bitlen hd hlt, hexp, hd, Nat.add_sub_cancel]

end FromInt

end Sys2Proof.Machine
end

section
/-! Conversions between the float formats (49_convert.md R269, R276). Narrowing rounds the value; widening keeps it,
because every value of the smaller format is one of the larger, so narrowing what was widened changes nothing. -/

namespace Sys2Proof.Machine

section Convert
variable {src dst : Fmt} {a : Pat src} (rm : RoundingMode) (tm : Tininess)

theorem floatToFloat_of_isInf (h : isInf src a = true) :
    floatToFloat src dst a rm tm = (infPat dst (signOf src a), noFlags) := by
  simp [floatToFloat, isInf_excludes h, h]

theorem floatToFloat_of_isZero (h : isZero src a = true) :
    floatToFloat src dst a rm tm = (zeroPat dst (signOf src a), noFlags) := by
  simp [floatToFloat, isZero_excludes h, h]

theorem floatToFloat_of_finite (ha : isFinite src a = true) (hz : isZero src a = false) :
    floatToFloat src dst a rm tm =
      roundExact dst (signOf src a) (unpack src a).m false (unpack src a).q rm tm := by
  simp [floatToFloat, isFinite_excludes ha, hz]

/-- A value that the other format has is converted to it exactly. -/
theorem floatToFloat_of_magOf {z : Pat dst} (ha : isFinite src a = true) (hz : isFinite dst z = true)
    (hsign : signOf dst z = signOf src a) (hmag : magOf ℚ dst z = magOf ℚ src a) :
    floatToFloat src dst a rm tm = (z, noFlags) := by
  cases hzero : isZero src a with
  | true =>
    have hzero' : isZero dst z = true := by rw [← magOf_eq_zero_iff, hmag, magOf_eq_zero_iff, hzero]
    rw [floatToFloat_of_isZero rm tm hzero, ← hsign, ← eq_zeroPat_of_isZero hzero']
  | false =>
    rw [floatToFloat_of_finite rm tm ha hzero, ← hsign]
    exact roundExact_of_magOf hz (unpack_m_pos hzero) hmag rm tm

theorem infPat_spec (fmt : Fmt) (s : Bool) : isInf fmt (infPat fmt s) = true ∧ signOf fmt (infPat fmt s) = s := by
  cases fmt <;> cases s <;> decide

end Convert

/-- Settles O48: the kernel hands the engine the sign and the magnitude of the operand. -/
theorem narrowOfNonNaN : Obligations.NarrowOfNonNaN := by
  intro rm exact ops s a
  refine ⟨fun h => answers_of_exec rfl (floatToFloat_of_isInf rm s.tininess h),
    fun h => answers_of_exec rfl (floatToFloat_of_isZero rm s.tininess h), fun ⟨ha, hz⟩ => ?_⟩
  rw [Bool.not_eq_true] at hz
  have hin := bridge_engineInput_exact (fmt := .f32) (unpack_m_pos hz) (unpack .f64 a).q
  exact ⟨_, hin.correctlyRounded_roundPack (signOf .f64 a) rm s.tininess,
    answers_of_exec rfl (floatToFloat_of_finite rm s.tininess ha hz)⟩

/-- Every finite single is a double. -/
theorem exists_widened {a : Pat .f32} (ha : isFinite .f32 a = true) :
    ∃ z : Pat .f64, isFinite .f64 z = true ∧ signOf .f64 z = signOf .f32 a ∧ magOf ℚ .f64 z = magOf ℚ .f32 a := by
  cases hz : isZero .f32 a with
  | true =>
    obtain ⟨hfin, hsign, -, hmag⟩ := zeroPat_spec .f64 (signOf .f32 a)
    exact ⟨_, hfin, hsign, by rw [hmag, (magOf_eq_zero_iff a).mpr hz]⟩
  | false =>
    have hrange : Fmt.emin .f64 - Fmt.t .f64 ≤ Fmt.emin .f32 - Fmt.t .f32 ∧
      Fmt.emax .f32 - Fmt.t .f32 ≤ Fmt.emax .f64 - Fmt.t .f64 ∧ 2 ^ Fmt.p .f32 ≤ 2 ^ Fmt.p .f64 := by decide
    obtain ⟨hlo, hhi, hp⟩ := hrange
    exact exists_pattern _ (unpack_m_pos hz) ((unpack_m_lt .f32 a).trans_le hp) (hlo.trans (unpack_q_bounds .f32 a).1)
      ((unpack_q_le_of_isFinite ha).trans hhi)

/-- Settles O49: the value is one of the larger format. -/
theorem widenOfNonNaN : Obligations.WidenOfNonNaN := by
  intro rm exact ops s a
  refine ⟨fun h => answers_of_exec rfl (floatToFloat_of_isInf rm s.tininess h), fun ha => ?_⟩
  obtain ⟨z, hfin, hsign, hmag⟩ := exists_widened ha
  exact ⟨z, hfin, hsign, hmag, answers_of_exec rfl (floatToFloat_of_magOf rm s.tininess ha hfin hsign hmag)⟩

/-- Widening and narrowing again, in any two modes. -/
theorem exists_widened_narrowed {a : Pat .f32} (ha : isNaN .f32 a = false) :
    ∃ z : Pat .f64, (∀ rm tm, floatToFloat .f32 .f64 a rm tm = (z, noFlags)) ∧
      ∀ rm tm, floatToFloat .f64 .f32 z rm tm = (a, noFlags) := by
  obtain hfin | hinf := isFinite_or_isInf ha
  · obtain ⟨z, hz, hsign, hmag⟩ := exists_widened hfin
    exact ⟨z, fun rm tm => floatToFloat_of_magOf rm tm hfin hz hsign hmag,
      fun rm tm => floatToFloat_of_magOf rm tm hz hfin hsign.symm hmag.symm⟩
  · obtain ⟨hz, hsign⟩ := infPat_spec .f64 (signOf .f32 a)
    refine ⟨_, fun rm tm => floatToFloat_of_isInf rm tm hinf, fun rm tm => ?_⟩
    rw [floatToFloat_of_isInf rm tm hz, hsign, ← eq_infPat_of_isInf hinf]

/-- Settles O50: the widened pattern has the value of the single it came from. -/
theorem narrowInvertsWiden : Obligations.NarrowInvertsWiden := by
  intro a rm rm' exact b c s ha
  obtain ⟨z, hwiden, hnarrow⟩ := exists_widened_narrowed ha
  refine ⟨zext z, answers_of_exec rfl ?_, answers_of_exec rfl ?_⟩
  · exact (congrArg (floatToFloat .f32 .f64 · rm s.tininess) (patOf_setWidth .f32 a)).trans (hwiden ..)
  · exact (congrArg (floatToFloat .f64 .f32 · rm' s.tininess) (patOf_setWidth .f64 z)).trans (hnarrow ..)

end Sys2Proof.Machine
end

section
/-! What every step keeps (60_exceptions.md R280, R282), and reset (70_reset_and_hazards.md R300): a kernel request
merges one of the legal flag sets into `FLAGS`, in each of which underflow and overflow come with inexact, and a control
request returns no flag and writes `FLAGS` empty or not at all. -/

namespace Sys2Proof.Machine

/-- The flag sets one request can return (R282). -/
def responseRow : List FlagSet := [0, NX, UF ||| NX, OF ||| NX, DZ, NV]

theorem engineRow_subset_responseRow : engineRow ⊆ responseRow := by decide

theorem allowedFlags_subset_responseRow (i : Instr) : allowedFlags i ⊆ responseRow := by
  cases i
  case f32_div | f64_div => exact List.Subset.refl _
  case f32_roundToInt | f64_roundToInt | f32_to_ui32 | f32_to_ui64 | f32_to_i32 | f32_to_i64 | f64_to_ui32 |
      f64_to_ui64 | f64_to_i32 | f64_to_i64 =>
    exact List.Subset.trans (integerRow_subset _) engineRow_subset_responseRow
  all_goals exact List.Subset.trans (by simp [allowedFlags, engineRow]) engineRow_subset_responseRow

/-- Underflow and overflow come with inexact. -/
def RangeFlagsInexact (fl : FlagSet) : Prop :=
  (fl.getLsbD 1 = true → fl.getLsbD 0 = true) ∧ (fl.getLsbD 2 = true → fl.getLsbD 0 = true)

theorem rangeFlagsInexact_of_mem : ∀ fl ∈ responseRow, RangeFlagsInexact fl := by
  simp only [responseRow, RangeFlagsInexact]
  decide

theorem RangeFlagsInexact.or {fl fl' : FlagSet} (h : RangeFlagsInexact fl) (h' : RangeFlagsInexact fl') :
    RangeFlagsInexact (fl ||| fl') := by
  obtain ⟨hu, ho⟩ := h
  obtain ⟨hu', ho'⟩ := h'
  simp only [RangeFlagsInexact, BitVec.getLsbD_or, Bool.or_eq_true]
  exact ⟨Or.imp hu hu', Or.imp ho ho'⟩

theorem flagsConsistent_iff (s : State) :
    FlagsConsistent s ↔ RangeFlagsInexact s.flags ∧ ∀ p, s.response = some p → p.fl ∈ responseRow := and_assoc.symm

/-- A request leaves the invariant whatever response stood before it: it returns its own. -/
theorem exec_flagsConsistent {i : Instr} {s t : State} (hs : RangeFlagsInexact s.flags) (h : exec i s = .next t) :
    FlagsConsistent t := by
  obtain ⟨t', p, hexec, hp, hmem⟩ := flagSetsPerRequest i s
  cases h.symm.trans hexec
  have hrow := allowedFlags_subset_responseRow i hmem
  rw [flagsConsistent_iff]
  refine ⟨?_, fun p' hp' => by cases hp.symm.trans hp'; exact hrow⟩
  obtain ⟨-, z, fl, rfl⟩ | ⟨spare, ops, ⟨-, rfl⟩ | ⟨-, rfl⟩ | ⟨-, rfl⟩⟩ := exec_next_cases h
  · cases hp
    exact hs.or (rangeFlagsInexact_of_mem fl hrow)
  · exact rangeFlagsInexact_of_mem noFlags List.mem_cons_self
  · exact rangeFlagsInexact_of_mem noFlags List.mem_cons_self
  · exact hs

theorem afterReset_flagsConsistent (rest : List HostInput) : FlagsConsistent (State.afterReset rest) :=
  (flagsConsistent_iff _).mpr
    ⟨rangeFlagsInexact_of_mem noFlags List.mem_cons_self, fun _ hp => nomatch hp⟩

/-- Settles O22: no flag and no response. -/
theorem resetFlagsConsistent : Obligations.ResetFlagsConsistent := afterReset_flagsConsistent []

/-- Settles O21, by what a step can do: nothing, a reset, or a request. -/
theorem stepKeepsFlagsConsistent : Obligations.StepKeepsFlagsConsistent := by
  intro s t hs h
  obtain ⟨-, rfl⟩ | ⟨rest, -, rfl⟩ | ⟨r, rest, i, -, -, hexec⟩ := step_next_cases h
  · exact hs
  · exact afterReset_flagsConsistent rest
  · exact exec_flagsConsistent (s := s.taking rest) ((flagsConsistent_iff s).mp hs).1 hexec

/-- No request touches the inputs that are still to come. -/
theorem exec_inputs {i : Instr} {s t : State} (h : exec i s = .next t) : t.inputs = s.inputs := by
  obtain ⟨-, z, fl, rfl⟩ | ⟨spare, ops, ⟨-, rfl⟩ | ⟨-, rfl⟩ | ⟨-, rfl⟩⟩ := exec_next_cases h
  all_goals rfl

/-- A well-formed request that is the oldest input is answered. -/
theorem step_wellFormed {s : State} {r : Request} {rest : List HostInput} (hs : s.inputs = .request r :: rest)
    (hr : r.wellFormed = true) : ∃ t p, step s = .next t ∧ t.inputs = rest ∧ t.response = some p := by
  obtain ⟨-, i, hd⟩ | ⟨hill, -⟩ := decode_wellFormed_cases r
  · obtain ⟨t, p, hexec, hp, -⟩ := flagSetsPerRequest i (s.taking rest)
    exact ⟨t, p, (step_request hs hd).trans hexec, exec_inputs hexec, hp⟩
  · cases hr.symm.trans hill

theorem State.safe_cons {s : State} {x : HostInput} {rest : List HostInput} (hs : s.inputs = x :: rest) :
    s.safe = true ↔ safeInput x = true ∧ rest.all safeInput = true := by
  rw [State.safe, hs, List.all_cons, Bool.and_eq_true]

/-- Settles O19, by the oldest input: none, a reset, or a well-formed request. -/
theorem wellFormedRequestsComplete : Obligations.WellFormedRequestsComplete := by
  refine ⟨fun s hsafe => ?_, step_not_fault⟩
  rcases hs : s.inputs with - | ⟨r | -, rest⟩
  · exact ⟨s, step_idle hs, hsafe, fun _ _ h => nomatch h⟩
  · obtain ⟨hr, hrest⟩ := (State.safe_cons hs).mp hsafe
    obtain ⟨t, p, hstep, hin, hp⟩ := step_wellFormed hs hr
    exact ⟨t, hstep, by rw [State.safe, hin, hrest], fun _ _ _ => ⟨p, hp⟩⟩
  · obtain ⟨-, hrest⟩ := (State.safe_cons hs).mp hsafe
    exact ⟨_, step_reset hs, hrest, fun _ _ h => nomatch h⟩

/-- Settles O10: the state after reset, whose two registers are those `ctx_init` writes when `A[0]` is 1. -/
theorem resetFromAnyState : Obligations.ResetFromAnyState := by
  intro s rest hs
  refine ⟨_, step_reset hs, State.afterReset_flags rest, rfl, rfl, State.afterReset_response rest,
    State.afterReset_inputs rest, fun spare ops ha => ⟨_, rfl, rfl, ?_⟩⟩
  exact if_pos ha

end Sys2Proof.Machine
end
